-- ==== Sys2Proof/Word.lean ====
section
/-! DEFINITION. The word types of the part: bytes of the two links, and the 16-bit registers of the check value and of the line sequence. -/

namespace Sys2Proof

/-- One byte of a depot-line frame, of a vehicle-link request or of a termination record (R180 to R182). -/
abbrev Byte := BitVec 8

/-- A 16-bit register: the CRC-16 register (R143) and the line sequence (R153). -/
abbrev Word16 := BitVec 16

end Sys2Proof
end

