-- ==== Sys2Proof/Syntax.lean ====
section
/-! DEFINITION. The commands of the part: one constructor of Instr per row of spec/opcode_table.json, with the operands the rules give each row. -/

namespace Sys2Proof

/-- The four heater zones (R68). -/
inductive ZoneId where
  | z1 | z2 | z3 | z4
deriving DecidableEq, Repr

/-- The flags of an ANNOUNCE (R2, R44). -/
structure PeerFlags where
  session  : Bool
  charging : Bool
  heating  : Bool
deriving DecidableEq, Repr

/-- The share fields of an ANNOUNCE and of a peer entry (R1, R145). -/
structure ShareFields where
  feederLimit : Nat
  demand      : Nat
  weight      : Nat
  limit       : Nat
  intent      : Nat
  flags       : PeerFlags
deriving DecidableEq, Repr

/-- The header of a received frame as the framer read it (R145), with the moment its start bit arrived. -/
structure Header where
  /-- Moment the start bit arrived, in microseconds on the model's time (R154: whether the framer was taking frames then). -/
  begun : Nat
  /-- Sender's station code. -/
  code  : Nat
  /-- Sender's depot code. -/
  depot : Nat
deriving DecidableEq, Repr

/-- A bit boundary of the line, as the transmitter reads it there (R149). -/
structure Boundary where
  /-- Moment of the boundary, in microseconds on the model's time. -/
  moment    : Nat
  /-- Moment since which the line has been recessive (log 22). -/
  recessive : Nat
deriving DecidableEq, Repr

/-- The result of a zone's temperature conversion (R70). -/
inductive Conversion where
  | reading (d : Int)
  | openCircuit
  | shortCircuit
deriving DecidableEq, Repr

/-- The sensed quantities of one meter sample, before the gains (R117): bus voltage in dV, total and heater current in cA. -/
structure MeterInputs where
  voltage : Int
  total   : Int
  heater  : Int
deriving DecidableEq, Repr

/-- The commands. Every command carries in `t` the moment it happens, in microseconds on the model's time; a moment already
passed means "now" (DESIGN CHOICE, log 2). A vehicle-link request carries its tag and its parameter bytes; its length byte
is the number of those bytes (R171, R182). -/
inductive Instr where
  /-- TRANSACTION (R170): SELN falls; `clocked` whole bytes are clocked before it rises. -/
  | transaction (t : Nat) (clocked : Nat)
  /-- NOP (R171): the rising edge with code 00h, or with only zero bytes shifted in. -/
  | nop (t : Nat)
  /-- UNKNOWN_CODE (R171): the rising edge, with the bytes shifted in as they came. -/
  | unknownCode (t : Nat) (bytes : List Byte)
  /-- READ_STATUS (R176). -/
  | readStatus (t : Nat) (tag : Byte) (params : List Byte)
  /-- READ_TRIM (R179). -/
  | readTrim (t : Nat) (tag : Byte) (params : List Byte)
  /-- SOFT_RESET (R169). -/
  | softReset (t : Nat) (tag : Byte) (params : List Byte)
  /-- CONFIGURE (R158, R177): the parameter bytes are the configuration block. -/
  | configure (t : Nat) (tag : Byte) (params : List Byte)
  /-- READ_FAULTS (R166). -/
  | readFaults (t : Nat) (tag : Byte) (params : List Byte)
  /-- READ_SESSION (R142). -/
  | readSession (t : Nat) (tag : Byte) (params : List Byte)
  /-- ACK_SESSION (R141). -/
  | ackSession (t : Nat) (tag : Byte) (params : List Byte)
  /-- READ_TRACE (R116). -/
  | readTrace (t : Nat) (tag : Byte) (params : List Byte)
  /-- SET_TARGET (R54). -/
  | setTarget (t : Nat) (tag : Byte) (params : List Byte)
  /-- READ_PEERS (R18). -/
  | readPeers (t : Nat) (tag : Byte) (params : List Byte)
  /-- OPEN_SESSION (R134). -/
  | openSession (t : Nat) (tag : Byte) (params : List Byte)
  /-- CLOSE_SESSION (R160). -/
  | closeSession (t : Nat) (tag : Byte) (params : List Byte)
  /-- MEASURE_NOW (R103). -/
  | measureNow (t : Nat) (tag : Byte) (params : List Byte)
  /-- CALIBRATE_METER (R122). -/
  | calibrateMeter (t : Nat) (tag : Byte) (params : List Byte)
  /-- CLEAR_FAULT (R167). -/
  | clearFault (t : Nat) (tag : Byte) (params : List Byte)
  /-- POWER_ON_RESET (R168). -/
  | powerOnReset (t : Nat)
  /-- ANNOUNCE_ARRIVAL (R3 to R5, R11, R12). -/
  | announceArrival (t : Nat) (h : Header) (f : ShareFields)
  /-- EPOCH_ARRIVAL (R6, R100): epoch number and half-period in ms. -/
  | epochArrival (t : Nat) (h : Header) (epoch half : Nat)
  /-- FINDING_ARRIVAL (R6, R100): epoch number, result byte, R in kilohm, bus voltage in dV. -/
  | findingArrival (t : Nat) (h : Header) (epoch result r v : Nat)
  /-- CLAIM_ARRIVAL (R6, R109): epoch number and R_b in kilohm. -/
  | claimArrival (t : Nat) (h : Header) (epoch rb : Nat)
  /-- LEAVE_ARRIVAL (R8). -/
  | leaveArrival (t : Nat) (h : Header)
  /-- RECEIVE_DISCARD (R154): the line as the framer read it from the start bit on; true is recessive (a 1), false dominant. -/
  | receiveDiscard (t : Nat) (begun : Nat) (bits : List Bool)
  /-- ATTEMPT_START (R149), at a bit boundary of the line, whose moment is the command's. -/
  | attemptStart (t : Boundary)
  /-- ANNOUNCE_SENT (R38, R151). -/
  | announceSent (t : Nat)
  /-- EPOCH_SENT (R88, R99, R151). -/
  | epochSent (t : Nat)
  /-- FINDING_SENT (R151). -/
  | findingSent (t : Nat)
  /-- CLAIM_SENT (R17, R151). -/
  | claimSent (t : Nat)
  /-- LEAVE_SENT (R17, R151). -/
  | leaveSent (t : Nat)
  /-- ATTEMPT_FAILED (R152). -/
  | attemptFailed (t : Nat)
  /-- BACKOFF_END (R153). -/
  | backoffEnd (t : Nat)
  /-- STALE_THRESHOLD (R9) of the entry with this code. -/
  | staleThreshold (t : Nat) (code : Nat)
  /-- REMOVAL_THRESHOLD (R10) of the entry with this code. -/
  | removalThreshold (t : Nat) (code : Nat)
  /-- UNLISTED_PEER_TIMER_EXPIRY (R13). -/
  | unlistedPeerTimerExpiry (t : Nat)
  /-- HOLD_TIMER_EXPIRY (R40). -/
  | holdTimerExpiry (t : Nat)
  /-- ANNOUNCE_TIMER_EXPIRY (R45). -/
  | announceTimerExpiry (t : Nat)
  /-- LISTEN_WINDOW_EXPIRY (R159). -/
  | listenWindowExpiry (t : Nat)
  /-- STAGGER_TIMER_EXPIRY (R75). -/
  | staggerTimerExpiry (t : Nat)
  /-- IDLE_TIMER_EXPIRY (R82). -/
  | idleTimerExpiry (t : Nat)
  /-- EPOCH_TIMER_EXPIRY (R86). -/
  | epochTimerExpiry (t : Nat)
  /-- LOSS_DEADLINE (R97). -/
  | lossDeadline (t : Nat)
  /-- CLAIM_WINDOW_EXPIRY (R111). -/
  | claimWindowExpiry (t : Nat)
  /-- DOSE_LIMIT (R78) of this zone. -/
  | doseLimit (t : Nat) (zone : ZoneId)
  /-- CYCLE_SAMPLE (R89): U in mV, I_b in microampere before the gain. -/
  | cycleSample (t : Nat) (u ib : Int)
  /-- HALF_END (R89): the end sample's U in mV, I_b in microampere before the gain. -/
  | halfEnd (t : Nat) (u ib : Int)
  /-- METER_SAMPLE (R118). -/
  | meterSample (t : Nat) (m : MeterInputs)
  /-- INTERVAL_END (R126): the sample whose completion ends the interval. -/
  | intervalEnd (t : Nat) (m : MeterInputs)
  /-- BUS_PRESENT (R124, R159): the sample whose completion reports the bus present. -/
  | busPresent (t : Nat) (m : MeterInputs)
  /-- BUS_LOST (R124, R162): the sample whose completion reports the bus lost. -/
  | busLost (t : Nat) (m : MeterInputs)
  /-- OVERDRAW (R50): the sample whose completion brings the overdraw count to 4. -/
  | overdraw (t : Nat) (m : MeterInputs)
  /-- TEMPERATURE_CONVERSION (R71). -/
  | temperatureConversion (t : Nat) (zone : ZoneId) (c : Conversion)
  /-- CONVERTER_FAULT_INPUT (R47): the level the input takes. -/
  | converterFaultInput (t : Nat) (asserted : Bool)
deriving DecidableEq, Repr

end Sys2Proof
end

