-- ==== Sys2Proof/Decode.lean ====
section
/-! DEFINITION. The command a word spells by the opcode table's bits: the table gives bits for none of its 54 rows. -/

namespace Sys2Proof

/-- No row of spec/opcode_table.json has bits (98_reader.md: 54 rows, 0 with fixed bits, 0 with fields), so no word spells a
command. The vehicle link's request bytes are read by `Machine.takeRaw`, the depot line's bits by `Machine.readFrame`. -/
def decodeTableWord (_nbits _w : Nat) : Option Instr := none

end Sys2Proof
end

