-- ==== Sys2Proof/Config.lean ====
section
/-! DEFINITION. What the part fixes (capacities, fixed durations and bounds that the rules state as numbers) and the free values: what the spec leaves open and the machine still needs (opaque constants, no body). -/

namespace Sys2Proof.Config

/-- Peer table capacity (R1). -/
def peerCapacity : Nat := 24

/-- Session log capacity (R140). -/
def logCapacity : Nat := 16

/-- Fault history capacity (R165). -/
def historyCapacity : Nat := 12

/-- Trace capacity (R115). -/
def traceCapacity : Nat := 32

/-- Failed attempts at which an entry is dropped (R152). -/
def dropAttempts : Nat := 4

/-- Microseconds in one bit time of the depot line (R144). -/
def bitMicros : Nat := 16

/-- The idle gap of 12 bit times, in microseconds (R144, R149). -/
def gapMicros : Nat := 192

/-- One backoff slot of 16 bit times, in microseconds (R153). -/
def slotMicros : Nat := 256

/-- One meter sample period, in microseconds (R117). -/
def sampleMicros : Nat := 250000

/-- Samples in one billing interval (R125). -/
def intervalSamples : Nat := 240

/-- Energy units in one milliwatt-hour (R119). -/
def unitsPerMilliwattHour : Nat := 14400

/-- Top of one energy counter of a session record (R132). -/
def counterTop : Nat := 4294967295

/-- Top of the 16-bit interval counts, interval number and drop count (R125, R132, R156). -/
def countTop : Nat := 65535

/-- Greatest lifetime reading at which a session may open: 2^48 - 1 - 6 x 4294967295 (R134). -/
def lifetimeOpenBound : Nat := 2 ^ 48 - 1 - 6 * 4294967295

/-- The session number that is never issued (R133). -/
def numberNeverIssued : Nat := 4294967295

/-- Where the station clock stops (R158). -/
def clockTop : Nat := 4294967295

/-- Resistance that means "at or above the measuring range", in kilohm (R91, R92). -/
def rangeTop : Nat := 50000

/-- Stagger between two zone switch-ons, in microseconds (R74). -/
def staggerMicros : Nat := 2000000

/-- One cycle of the temperature conversions, in microseconds (R70). -/
def cycleMicros : Nat := 1000000

/-- Idle time before the heater contactor opens, in microseconds (R82). -/
def idleMicros : Nat := 30000000

/-- Setpoint rise per meter sample, in dA (R46). -/
def setpointStep : Nat := 50

/-- Time one idle step of the model lets pass, in microseconds (DESIGN CHOICE, log 3). -/
def tickMicros : Nat := 1

/-- FREE VALUE (log 6). The bytes that the Trim Store's CRC is computed over: R179 states the five constants and the CRC
but not the layout of the constants in the store. Arguments: U_i, R_c, and the branch, total-current and heater gains. -/
opaque trimImage : Nat → Nat → Nat → Nat → Nat → List Byte

/-- FREE VALUE (log 7). What a 4-byte data field that holds "a resistance or UNSETTLED" reads when it is UNSETTLED: R182
states the reading of a number, of an absent field and of an enumeration, and none for this case. -/
opaque unsettledWord : BitVec 32

/-- FREE VALUE (log 10). The bytes a transaction shifts out after the last byte of a termination record, by their place after
it: R170 states what follows the status byte when no record waits, and is silent on what follows a whole record. -/
opaque afterRecord : Nat → Byte

end Sys2Proof.Config
end

