-- ==== Sys2Proof/Machine/State.lean ====
section
/-! DEFINITION. The state of one Kalvo 740, block by block, as plain data; its reset values; the fault and refusal reasons. Moments and durations held in State are in microseconds on the model's time unless a field says otherwise. -/

namespace Sys2Proof.Machine

/-! ## Shared small types -/

/-- Four like things, one for each heater zone. -/
structure Quad (α : Type) where
  q1 : α
  q2 : α
  q3 : α
  q4 : α
deriving DecidableEq, Repr

/-- The operating states (R157), in the order the spec lists them. -/
inductive OpState where
  | start | ready | listening | linked | session | halted
deriving DecidableEq, Repr

/-- The tariff bands (R129). -/
inductive Band where
  | low | normal | peak
deriving DecidableEq, Repr

/-! ## Settings (CONFIGURE, R177, R178) -/

/-- The policies of the five selectable faults; true is stop class (R164, R178). -/
structure Policies where
  insBus       : Bool
  insUnsettled : Bool
  overdraw     : Bool
  heaterAllOut : Bool
  meterCal     : Bool
deriving DecidableEq, Repr

/-- The settings of the blocks, as CONFIGURE set them or as they stand before it. -/
structure Settings where
  stationCode   : Nat
  depotCode     : Nat
  feederLimit   : Nat
  margin        : Nat
  ta            : Nat
  ist           : Nat
  irating       : Nat
  nominalV      : Nat
  busThreshold  : Nat
  tolerance     : Nat
  policies      : Policies
  derate        : List Nat
  tPermit       : Int
  zoneOrder     : List ZoneId
  ratings       : Quad Nat
  tTarget       : Int
  hysteresis    : Int
  tCut          : Int
  doseLimit     : Nat
  epochInterval : Nat
  warn          : Nat
  alarm         : Nat
  lowBand       : Nat
  peakBand      : Nat
deriving DecidableEq, Repr

/-- The default policies: OVERDRAW and METER_CAL stop, the others continue (R164). -/
def Policies.default : Policies :=
  { insBus := false, insUnsettled := false, overdraw := true, heaterAllOut := false, meterCal := true }

/-- The default derate table (R59). -/
def defaultDerate : List Nat := [0, 0, 0, 0, 0, 0, 0, 0, 250, 500, 800, 1000, 1000, 1000, 1000, 600]

/-- The settings after either reset, until CONFIGURE is accepted (R20, R53, R68, R104, R130, R158, R164). -/
def Settings.reset : Settings :=
  { stationCode := 0, depotCode := 0, feederLimit := 0, margin := 0, ta := 500, ist := 0, irating := 0, nominalV := 0,
    busThreshold := 2000, tolerance := 10, policies := Policies.default, derate := defaultDerate, tPermit := 0,
    zoneOrder := [.z1, .z2, .z3, .z4], ratings := ⟨0, 0, 0, 0⟩, tTarget := 100, hysteresis := 20, tCut := 450,
    doseLimit := 3600, epochInterval := 30, warn := 500, alarm := 100, lowBand := 500, peakBand := 850 }

/-! ## Peer Table (PTB, chapter 1) -/

/-- Freshness of a peer entry (R1). -/
inductive Freshness where
  | fresh | stale
deriving DecidableEq, Repr

/-- One peer entry (R1). -/
structure PeerEntry where
  code      : Nat
  share     : ShareFields
  freshness : Freshness
  /-- Time since any frame last arrived from the code, in microseconds. -/
  silence   : Nat
  heard     : Bool
  claimant  : Bool
deriving DecidableEq, Repr

/-- The Peer Table block: entries in ascending order of code, the unlisted-peer timer, F and the mismatch onset mark. -/
structure Ptb where
  entries  : List PeerEntry
  unlisted : Option Nat
  feeder   : Nat
  mismatch : Bool
deriving DecidableEq, Repr

def Ptb.reset : Ptb := { entries := [], unlisted := none, feeder := 0, mismatch := false }

/-! ## Share Unit (SHU, chapters 2 and 3) -/

/-- The zero cause of the grant record (R29). -/
inductive ZeroCause where
  | none | noSession | unlisted
deriving DecidableEq, Repr

/-- The grant record (R19): A, S, A1, g, B, G and the zero cause. -/
structure GrantRecord where
  available : Nat
  frozen    : Nat
  pool      : Nat
  own       : Nat
  balance   : Int
  grant     : Nat
  zeroCause : ZeroCause
deriving DecidableEq, Repr

/-- The grant record after either reset (R19). -/
def GrantRecord.reset : GrantRecord :=
  { available := 0, frozen := 0, pool := 0, own := 0, balance := 0, grant := 0, zeroCause := .noSession }

/-- The hold state (R36). -/
inductive HoldState where
  | steady | holding
deriving DecidableEq, Repr

/-- The Share Unit: the grant record and the share state of R36, and the level of the converter's fault input (R47). -/
structure Shu where
  record       : GrantRecord
  limit        : Nat
  intent       : Nat
  hold         : HoldState
  raisePending : Bool
  holdStart    : Option Nat
  holdTimer    : Option Nat
  setpoint     : Nat
  enable       : Bool
  overCount    : Nat
  overWait     : Bool
  exclusion    : Nat
  peak         : Nat
  faultInput   : Bool
deriving DecidableEq, Repr

def Shu.reset : Shu :=
  { record := GrantRecord.reset, limit := 0, intent := 0, hold := .steady, raisePending := false, holdStart := none,
    holdTimer := none, setpoint := 0, enable := false, overCount := 0, overWait := false, exclusion := 0, peak := 0,
    faultInput := false }

/-! ## Demand Unit (DMU, chapter 4) -/

/-- The split order (R63). -/
inductive SplitOrder where
  | heaterFirst | chargerFirst
deriving DecidableEq, Repr

/-- The Demand Unit's state of R53 (its configured items stand in Settings). -/
structure Dmu where
  target        : Nat
  departure     : Nat
  delivered     : Nat
  targetMet     : Bool
  weight        : Nat
  tMin          : Option Int
  band          : Nat
  chargerDemand : Nat
  heaterDemand  : Nat
  ownDemand     : Nat
  order         : SplitOrder
  chargerAllow  : Nat
  heaterAllow   : Nat
deriving DecidableEq, Repr

def Dmu.reset : Dmu :=
  { target := 0, departure := 0, delivered := 0, targetMet := false, weight := 1, tMin := none, band := 0,
    chargerDemand := 0, heaterDemand := 0, ownDemand := 0, order := .heaterFirst, chargerAllow := 0, heaterAllow := 0 }

/-! ## Heater Control (HTR, chapter 5) -/

/-- The zone states (R69). -/
inductive ZoneState where
  | out | warm | waiting | heating
deriving DecidableEq, Repr

/-- Why a zone is OUT (R69). -/
inductive OutCause where
  | sensorOpen | sensorShort | overtemp | ineffective
deriving DecidableEq, Repr

/-- A zone record (R69); the dose is the heating time in whole seconds (`Zone.dose`). -/
structure Zone where
  state    : ZoneState
  temp     : Option Int
  /-- Heating time, in microseconds. -/
  heatTime : Nat
  outCause : Option OutCause
deriving DecidableEq, Repr

def Zone.reset : Zone := { state := .warm, temp := none, heatTime := 0, outCause := none }

/-- The Heater Control: zone records, heater contactor (true: closed), stagger and idle timers, window flag (R69), and the
conversion cycle (R70). -/
structure Htr where
  zones      : Quad Zone
  contactor  : Bool
  stagger    : Option Nat
  idle       : Option Nat
  window     : Bool
  /-- Moment the conversion cycle started; none while it is stopped. -/
  cycleStart : Option Nat
  /-- For each zone, the cycles of this run up to and with the last one in which the zone was converted. -/
  converted  : Quad Nat
deriving DecidableEq, Repr

def Htr.reset : Htr :=
  { zones := ⟨Zone.reset, Zone.reset, Zone.reset, Zone.reset⟩, contactor := false, stagger := none, idle := none,
    window := false, cycleStart := none, converted := ⟨0, 0, 0, 0⟩ }

/-! ## Insulation Unit (INS, chapters 6 and 7) -/

/-- The epoch states (R85). -/
inductive EpochState where
  | idle | pending | injecting | observing
deriving DecidableEq, Repr

/-- The branch track (R85, R93). -/
inductive BranchTrack where
  | absent
  | held (estimate : Nat)
  | accepted (rb : Nat)
  | unsettled
deriving DecidableEq, Repr

/-- The injection source (R84). -/
inductive Source where
  | off | positive | negative
deriving DecidableEq, Repr

/-- The half of a cycle that runs (R89). -/
inductive Half where
  | positive | negative
deriving DecidableEq, Repr

/-- The bus record: the last ACCEPTED finding adopted (R85). `time` is in seconds on the station clock. -/
structure BusRecord where
  epoch    : Nat
  measurer : Nat
  r        : Nat
  voltage  : Nat
  time     : Nat
deriving DecidableEq, Repr

/-- The branch record (R85): `result` is the accepted R_b, or none for UNSETTLED. -/
structure BranchRecord where
  epoch    : Nat
  injector : Nat
  result   : Option Nat
deriving DecidableEq, Repr

/-- The epoch measurement of the Insulation Unit: the items of R85, the cycle record of the last completed cycle, and the
progress of the cycle in hand (R84, R89, R99, R101). -/
structure Ins where
  epochState   : EpochState
  epochNumber  : Nat
  injector     : Nat
  /-- Half-period, in ms. -/
  tHalf        : Nat
  origin       : Option Nat
  cycleCount   : Nat
  busTrack     : Option Nat
  branchTrack  : BranchTrack
  resend       : Bool
  lossDeadline : Option Nat
  epochTimer   : Option Nat
  lastEpoch    : Nat
  busRecord    : Option BusRecord
  branchRecord : Option BranchRecord
  /-- Cycle record: the six samples of U, then the six of I_b. -/
  cycleRecord  : Option (List Int × List Int)
  source       : Source
  /-- Moment the half in hand started; none while no cycle runs. -/
  halfStart    : Option Nat
  half         : Half
  /-- Sample points of the half in hand already passed (0, 1 or 2). -/
  points       : Nat
  samplesU     : List Int
  samplesI     : List Int
  /-- The cycle in hand was discarded and gives no estimate (R99). -/
  discarded    : Bool
  /-- Last bus estimate of the own epoch, for INS_UNSETTLED (R101). -/
  lastEstimate : Option Nat
deriving DecidableEq, Repr

def Ins.reset : Ins :=
  { epochState := .idle, epochNumber := 0, injector := 0, tHalf := 0, origin := none, cycleCount := 0, busTrack := none,
    branchTrack := .absent, resend := false, lossDeadline := none, epochTimer := none, lastEpoch := 0, busRecord := none,
    branchRecord := none, cycleRecord := none, source := .off, halfStart := none, half := .positive, points := 0,
    samplesU := [], samplesI := [], discarded := false, lastEstimate := none }

/-- The episode states (R105). -/
inductive EpisodeState where
  | normal | warning | claimWait | attributed | busFault | localFault | doubleFault
deriving DecidableEq, Repr

/-- A member of the claimant set (R105). -/
structure Claimant where
  code     : Nat
  epoch    : Nat
  rb       : Nat
  departed : Bool
deriving DecidableEq, Repr

/-- The onset figures (R105). -/
structure Onset where
  epoch    : Nat
  measurer : Nat
  r        : Nat
  voltage  : Nat
  warnK    : Nat
  alarmK   : Nat
deriving DecidableEq, Repr

/-- The episode record (R105); the claimant set in order of joining. -/
structure Epi where
  state     : EpisodeState
  claimants : List Claimant
  window    : Option Nat
  onset     : Option Onset
deriving DecidableEq, Repr

def Epi.reset : Epi := { state := .normal, claimants := [], window := none, onset := none }

/-- One trace entry (R115). `r` is none for UNSETTLED; `branch` is none when absent, and otherwise R_b or none for UNSETTLED. -/
structure TraceEntry where
  epoch    : Nat
  measurer : Nat
  r        : Option Nat
  voltage  : Nat
  branch   : Option (Option Nat)
  time     : Nat
deriving DecidableEq, Repr

/-- The trace (R115), oldest entry first. -/
structure Trc where
  entries : List TraceEntry
  frozen  : Bool
  missed  : Nat
deriving DecidableEq, Repr

def Trc.reset : Trc := { entries := [], frozen := false, missed := 0 }

/-! ## Energy Meter (MTR, chapter 8) -/

/-- The latest meter sample, with its corrected total (R117, R119). R117 lists the total current as raw and scales both currents
"before use"; that the sample is kept with its currents after the gains is the model's choice (DESIGN CHOICE, log 47). -/
structure MeterSample where
  voltage   : Nat
  total     : Int
  heater    : Int
  corrected : Int
deriving DecidableEq, Repr

/-- The calibration state (R120). -/
inductive CalState where
  | idle | pending | shorted
deriving DecidableEq, Repr

/-- The presence state (R124). -/
inductive Presence where
  | absent | present
deriving DecidableEq, Repr

/-- The interval record (R125). -/
structure Interval where
  heatAcc   : Nat
  chargeAcc : Nat
  count     : Nat
  band      : Band
  estimated : Bool
  reverse   : Bool
  number    : Nat
deriving DecidableEq, Repr

/-- The interval record outside a session (R125). -/
def Interval.none : Interval :=
  { heatAcc := 0, chargeAcc := 0, count := 0, band := .normal, estimated := false, reverse := false, number := 0 }

/-- The Energy Meter. `offset` and `lifetime` are retained (R120, R128); the sample-taken mark of R117 is `latest ≠ none`. -/
structure Mtr where
  latest     : Option MeterSample
  offset     : Int
  cal        : CalState
  presence   : Presence
  run        : Nat
  interval   : Interval
  heldHeat   : Nat
  heldCharge : Nat
  /-- Moment the sample period in hand ends; none while no samples are taken. -/
  periodEnd  : Option Nat
  /-- Moment at which a session opening abandoned a sample period that had just run its length: a loss which that sample
  reports at this very moment still counts (R134, log 31). -/
  overtaken  : Option Nat
  lifetime   : Nat
deriving DecidableEq, Repr

/-- The Energy Meter of a new part; the held units are 0 by the model's choice (log 35), the rest by R117, R120, R124, R125, R128. -/
def Mtr.reset : Mtr :=
  { latest := none, offset := 0, cal := .idle, presence := .absent, run := 0, interval := Interval.none, heldHeat := 0,
    heldCharge := 0, periodEnd := none, overtaken := none, lifetime := 0 }

/-! ## Session Store (SES, chapter 9) -/

/-- The six energy counters of a session record (R132), in mWh. -/
structure Counters where
  lowCharging   : Nat
  lowHeating    : Nat
  normCharging  : Nat
  normHeating   : Nat
  peakCharging  : Nat
  peakHeating   : Nat
deriving DecidableEq, Repr

/-- The fields of a session record that are not close fields (R132). -/
structure OpenRecord where
  number         : Nat
  station        : Nat
  depot          : Nat
  openTime       : Nat
  opening        : Nat
  counters       : Counters
  intervalCount  : Nat
  estimatedCount : Nat
  reverseCount   : Nat
  peak           : Nat
deriving DecidableEq, Repr

/-- The retained snapshot of the open record (R136). -/
structure Snapshot where
  record   : OpenRecord
  time     : Nat
  lifetime : Nat
deriving DecidableEq, Repr

/-- The close reasons (R132). -/
inductive CloseReason where
  | request | busLost | fault | reset | powerLoss
deriving DecidableEq, Repr

/-- The faults (R164). -/
inductive FaultCode where
  | insLocal | insBus | insDouble | insUnsettled | insWarn | overdraw | converter | codeConflict | limitMismatch
  | tableFull | heaterZone | heaterAllOut | meterCal
deriving DecidableEq, Repr

/-- A closed session record (R132). -/
structure ClosedRecord where
  record     : OpenRecord
  closeTime  : Nat
  closing    : Nat
  reason     : CloseReason
  faultCode  : Option FaultCode
  unrecorded : Bool
  check      : Word16
deriving DecidableEq, Repr

/-- The Session Store; snapshot, log (oldest first) and next number are retained (R133, R136, R140). -/
structure Ses where
  openRecord : Option OpenRecord
  snapshot   : Option Snapshot
  log        : List ClosedRecord
  nextNumber : Nat
deriving DecidableEq, Repr

/-- The Session Store of a new part. -/
def Ses.reset : Ses := { openRecord := none, snapshot := none, log := [], nextNumber := 1 }

/-! ## Station Control and Fault Handler (STC, FLT, chapter 11) -/

/-- Station Control: operating state, bus contactor (true: closed), listen window (R157); and the station clock (R158),
held as microseconds of station time, with its set mark. -/
structure Stc where
  op           : OpState
  contactor    : Bool
  listenWindow : Option Nat
  clockSet     : Bool
  clockMicros  : Nat
deriving DecidableEq, Repr

def Stc.reset : Stc := { op := .start, contactor := false, listenWindow := none, clockSet := false, clockMicros := 0 }

/-- The detail of a fault (R164). -/
inductive FaultDetail where
  | number (n : Int)
  | zone (z : ZoneId) (c : OutCause)
deriving DecidableEq, Repr

/-- A fault history entry (R165). -/
structure FaultEntry where
  time   : Nat
  code   : FaultCode
  detail : FaultDetail
  state  : OpState
deriving DecidableEq, Repr

/-- The Fault Handler; history (oldest first) and first-out are retained (R166). The policies stand in Settings. -/
structure Flt where
  history  : List FaultEntry
  firstOut : Option FaultEntry
deriving DecidableEq, Repr

def Flt.reset : Flt := { history := [], firstOut := none }

/-! ## Vehicle Link (VLK, chapter 12) -/

/-- Results of a termination record (R172, R182). -/
inductive Result where
  | done | notNow | range | logFull | order | noRecord | stillActive | abandoned | insulation
deriving DecidableEq, Repr

/-- A termination record (R172, R182). -/
structure TermRecord where
  tag       : Byte
  code      : Byte
  result    : Result
  clampMask : Nat
  data      : List Byte
deriving DecidableEq, Repr

/-- A transaction in hand (R170): the status byte fixed at SELN's falling edge, and the whole bytes clocked. -/
structure Txn where
  status  : Byte
  clocked : Nat
deriving DecidableEq, Repr

/-- The five pending event marks (R175). -/
structure Marks where
  fault         : Bool
  sessionClosed : Bool
  stateChanged  : Bool
  traceFrozen   : Bool
  frameDropped  : Bool
deriving DecidableEq, Repr

def Marks.none : Marks :=
  { fault := false, sessionClosed := false, stateChanged := false, traceFrozen := false, frameDropped := false }

/-- The Vehicle Link: transaction in hand (SELN low), bytes shifted out in the latest transaction, tag of the request in
progress, result slot, pending events. -/
structure Vlk where
  txn        : Option Txn
  shiftedOut : List Byte
  inProgress : Option Byte
  slot       : Option TermRecord
  marks      : Marks
deriving DecidableEq, Repr

/-- The Vehicle Link at power-on, before STATE_CHANGED is posted (R168). -/
def Vlk.reset : Vlk :=
  { txn := none, shiftedOut := [], inProgress := none, slot := none, marks := Marks.none }

/-! ## Trim Store (TRM, R179) -/

/-- The five trim constants. -/
structure TrimConstants where
  ui         : Nat
  rc         : Nat
  branchGain : Nat
  totalGain  : Nat
  heaterGain : Nat
deriving DecidableEq, Repr

/-- The nominal constants. -/
def TrimConstants.nominal : TrimConstants :=
  { ui := 40000, rc := 200000, branchGain := 10000, totalGain := 10000, heaterGain := 10000 }

/-- The Trim Store: the factory memory (constants and CRC), the values in use and the valid mark. -/
structure Trm where
  stored    : TrimConstants
  storedCrc : Word16
  inUse     : TrimConstants
  valid     : Bool
deriving DecidableEq, Repr

/-- A part trimmed to the nominal constants, its trim marked valid (DESIGN CHOICE, log 8). -/
def Trm.reset : Trm :=
  { stored := TrimConstants.nominal, storedCrc := 0, inUse := TrimConstants.nominal, valid := true }

/-! ## Depot Line Interface (DLI, chapter 10) -/

/-- The frame kinds, in the order the spec first lists them. -/
inductive FrameKind where
  | announce | epoch | finding | claim | leave
deriving DecidableEq, Repr

/-- A frame's payload (R145, R180). -/
inductive Payload where
  | announce (f : ShareFields)
  | epoch (number half : Nat)
  | finding (number result r v : Nat)
  | claim (number rb : Nat)
  | leave
deriving DecidableEq, Repr

/-- A frame: header codes and payload (R145). -/
structure Frame where
  code    : Nat
  depot   : Nat
  payload : Payload
deriving DecidableEq, Repr

/-- The content of a transmit queue entry (R146); ANNOUNCE and LEAVE hold none. -/
inductive TxContent where
  | none
  | epoch (number half : Nat)
  | finding (number result r v : Nat)
  | claim (number rb : Nat)
deriving DecidableEq, Repr

/-- A transmit queue entry (R146): its content and its count of failed attempts (0 throughout for ANNOUNCE). -/
structure TxEntry where
  content : TxContent
  failed  : Nat
deriving DecidableEq, Repr

/-- The transmit queue: at most one entry of each kind (R146). -/
structure TxQueue where
  announce : Option TxEntry
  epoch    : Option TxEntry
  finding  : Option TxEntry
  claim    : Option TxEntry
  leave    : Option TxEntry
deriving DecidableEq, Repr

def TxQueue.empty : TxQueue := { announce := none, epoch := none, finding := none, claim := none, leave := none }

/-- An attempt in progress (R149, R150): the frame being sent, the moment its last bit ends, and whether its owner asked
for the kind again during the attempt (R147). -/
structure Attempt where
  kind      : FrameKind
  frame     : Frame
  ends      : Nat
  refreshed : Bool
deriving DecidableEq, Repr

/-- The Depot Line Interface: transmit queue, attempt in progress, end of the backoff, drop record (R156), line sequence
(R153), announce timer (R45), the first moment the gap of R149 is complete, and the receive framer (R154): the first moment
at which it takes a start bit, and the moment it stopped taking them (R11). -/
structure Dli where
  queue       : TxQueue
  attempt     : Option Attempt
  backoff     : Option Nat
  dropKind    : Option FrameKind
  dropCount   : Nat
  sequence    : Word16
  announce    : Option Nat
  gapFrom     : Nat
  framerFrom  : Nat
  framerUntil : Option Nat
deriving DecidableEq, Repr

def Dli.reset : Dli :=
  { queue := TxQueue.empty, attempt := none, backoff := none, dropKind := none, dropCount := 0, sequence := 0,
    announce := none, gapFrom := 0, framerFrom := 0, framerUntil := none }

/-! ## The machine -/

/-- Why the machine stops. No rule of the spec stops it: every event and request has an effect, so there is no reason. -/
inductive Fault where
deriving DecidableEq, Repr

/-- Why a command has no meaning. -/
inductive Refusal where
  /-- Raised by an arm of `exec` whose command has no meaning yet; safe. No arm of this model raises it. -/
  | notModelled (mnemonic : String)
deriving DecidableEq, Repr

/-- The state of one station. `now` is the model's time in microseconds (log 2); `pending` the queue of waiting commands. -/
structure State where
  now     : Nat
  cfg     : Settings
  ptb     : Ptb
  shu     : Shu
  dmu     : Dmu
  htr     : Htr
  ins     : Ins
  epi     : Epi
  trc     : Trc
  mtr     : Mtr
  ses     : Ses
  stc     : Stc
  flt     : Flt
  vlk     : Vlk
  trm     : Trm
  dli     : Dli
  pending : List Instr
deriving DecidableEq, Repr

/-- The machine right after power-on reset of a new part: every block at its reset values, retained memory as in a part
that has never been used, START, and STATE_CHANGED pending (R168). -/
def State.reset : State :=
  { now := 0, cfg := Settings.reset, ptb := Ptb.reset, shu := Shu.reset, dmu := Dmu.reset, htr := Htr.reset,
    ins := Ins.reset, epi := Epi.reset, trc := Trc.reset, mtr := Mtr.reset, ses := Ses.reset, stc := Stc.reset,
    flt := Flt.reset, vlk := { Vlk.reset with marks := { Marks.none with stateChanged := true } }, trm := Trm.reset,
    dli := Dli.reset, pending := [] }

end Sys2Proof.Machine
end

