-- ==== Sys2Proof/Machine/Codec.lean ====
section
/-! DEFINITION. Bytes and numbers: most significant byte first (R180 to R182), two's complement, bits of a byte, and the CRC-16 of R143. -/

namespace Sys2Proof.Machine

/-- The `n` low bytes of `v`, most significant first. -/
def beBytes : Nat → Nat → List Byte
  | 0, _ => []
  | n + 1, v => BitVec.ofNat 8 (v / 256 ^ n) :: beBytes n v

/-- The number that bytes spell, most significant first. -/
def ofBytes (bs : List Byte) : Nat := bs.foldl (fun a b => a * 256 + b.toNat) 0

/-- The `n` bytes of `bs` from `offset` on, as an unsigned number. -/
def fieldAt (bs : List Byte) (offset n : Nat) : Nat := ofBytes ((bs.drop offset).take n)

/-- A 16-bit two's complement number. -/
def signed16 (v : Nat) : Int := if v < 32768 then (v : Int) else (v : Int) - 65536

/-- Two's complement of `i` in `n` bytes. -/
def beInt (n : Nat) (i : Int) : List Byte := beBytes n (i % ((256 ^ n : Nat) : Int)).toNat

/-- The bits of a byte, most significant first. -/
def byteBits (b : Byte) : List Bool :=
  [b.getLsbD 7, b.getLsbD 6, b.getLsbD 5, b.getLsbD 4, b.getLsbD 3, b.getLsbD 2, b.getLsbD 1, b.getLsbD 0]

/-- The bits of bytes in order. -/
def bytesBits (bs : List Byte) : List Bool := bs.flatMap byteBits

/-- The byte whose bits, most significant first, are `bs`. -/
def bitsByte (bs : List Bool) : Byte := BitVec.ofNat 8 (bs.foldl (fun a b => a * 2 + b.toNat) 0)

/-- `n` bytes read from bits, most significant bit first. -/
def bitsBytes : Nat → List Bool → List Byte
  | 0, _ => []
  | n + 1, bits => bitsByte (bits.take 8) :: bitsBytes n (bits.drop 8)

/-- One bit into the CRC register (R143): shift left, and when the top bit and the incoming bit differed, exclusive-or with 1021h. -/
def crcBit (r : Word16) (b : Bool) : Word16 :=
  if r.getLsbD 15 = b then r <<< 1 else (r <<< 1) ^^^ 0x1021#16

/-- The CRC-16 of R143: FFFFh to start, every byte most significant bit first, no inversion. -/
def crc16 (bs : List Byte) : Word16 := (bytesBits bs).foldl crcBit 0xFFFF#16

/-- A 4-byte data field of a reply (R182). -/
def word (n : Nat) : List Byte := beBytes 4 n

/-- A 4-byte signed data field of a reply (R182). -/
def wordInt (i : Int) : List Byte := beInt 4 i

/-- A field that is absent (R182). -/
def wordAbsent : List Byte := word 0x80000000

/-- A moment that is stopped or absent (R182). -/
def wordStopped : List Byte := word 0xFFFFFFFF

/-- A mark (R182). -/
def wordMark (b : Bool) : List Byte := word b.toNat

/-- A field that may be absent (R182). -/
def wordOpt (o : Option Nat) : List Byte := match o with
  | some n => word n
  | none => wordAbsent

/-- A signed field that may be absent (R182). -/
def wordIntOpt (o : Option Int) : List Byte := match o with
  | some n => wordInt n
  | none => wordAbsent

/-- A field that holds a resistance or UNSETTLED (log 7). -/
def wordResult (o : Option Nat) : List Byte := match o with
  | some n => word n
  | none => beBytes 4 Config.unsettledWord.toNat

/-- A moment to come, as the milliseconds still to run (R182). -/
def wordToCome (now : Nat) (m : Option Nat) : List Byte := match m with
  | some x => word ((x - now) / 1000)
  | none => wordStopped

/-- A moment past, as the milliseconds elapsed since it (R182). R182 gives the field 4 bytes and no cap: of more than 4294967295 ms
`word` keeps the low 32 bits (DESIGN CHOICE, log 41). -/
def wordPast (now : Nat) (m : Option Nat) : List Byte := match m with
  | some x => word ((now - x) / 1000)
  | none => wordStopped

/-- Where the value stands in the list in which the spec first names it (R182). -/
def OpState.position : OpState → Nat
  | .start => 0 | .ready => 1 | .listening => 2 | .linked => 3 | .session => 4 | .halted => 5

def ZeroCause.position : ZeroCause → Nat
  | .none => 0 | .noSession => 1 | .unlisted => 2

def HoldState.position : HoldState → Nat
  | .steady => 0 | .holding => 1

def SplitOrder.position : SplitOrder → Nat
  | .heaterFirst => 0 | .chargerFirst => 1

def Freshness.position : Freshness → Nat
  | .fresh => 0 | .stale => 1

def ZoneState.position : ZoneState → Nat
  | .out => 0 | .warm => 1 | .waiting => 2 | .heating => 3

def OutCause.position : OutCause → Nat
  | .sensorOpen => 0 | .sensorShort => 1 | .overtemp => 2 | .ineffective => 3

def EpochState.position : EpochState → Nat
  | .idle => 0 | .pending => 1 | .injecting => 2 | .observing => 3

def EpisodeState.position : EpisodeState → Nat
  | .normal => 0 | .warning => 1 | .claimWait => 2 | .attributed => 3 | .busFault => 4 | .localFault => 5
  | .doubleFault => 6

def CalState.position : CalState → Nat
  | .idle => 0 | .pending => 1 | .shorted => 2

def Presence.position : Presence → Nat
  | .absent => 0 | .present => 1

def Band.position : Band → Nat
  | .low => 0 | .normal => 1 | .peak => 2

def FrameKind.position : FrameKind → Nat
  | .announce => 0 | .epoch => 1 | .finding => 2 | .claim => 3 | .leave => 4

/-- A contactor: open 0, closed 1 (R157 lists "open or closed"). -/
def wordContactor (closed : Bool) : List Byte := word closed.toNat

/-- A fault policy: stop class 0, continue class 1 (chapter 0 lists "stop class, continue class"; log 9). -/
def wordPolicy (stop : Bool) : List Byte := word (if stop then 0 else 1)

/-- The zone's number. -/
def zoneNumber : ZoneId → Nat
  | .z1 => 1 | .z2 => 2 | .z3 => 3 | .z4 => 4

/-- The fault's code (R164). -/
def FaultCode.number : FaultCode → Nat
  | .insLocal => 10 | .insBus => 11 | .insDouble => 12 | .insUnsettled => 13 | .insWarn => 14
  | .overdraw => 20 | .converter => 21 | .codeConflict => 30 | .limitMismatch => 31 | .tableFull => 32
  | .heaterZone => 40 | .heaterAllOut => 41 | .meterCal => 50

/-- The result's code (R182). -/
def Result.number : Result → Nat
  | .done => 0 | .notNow => 1 | .range => 2 | .logFull => 3 | .order => 4 | .noRecord => 5 | .stillActive => 6
  | .abandoned => 7 | .insulation => 8

/-- The close reason's code in the export (R181); 0 marks an open record. -/
def CloseReason.number : CloseReason → Nat
  | .request => 1 | .busLost => 2 | .fault => 3 | .reset => 4 | .powerLoss => 5

/-- A fault detail as a data field: a zone and cause read as zone number times 256 plus the cause's position (R182). -/
def FaultDetail.word : FaultDetail → List Byte
  | .number n => wordInt n
  | .zone z c => Sys2Proof.Machine.word (zoneNumber z * 256 + c.position)

/-- The flags byte of an ANNOUNCE (R180). -/
def flagBits (f : PeerFlags) : Nat := f.session.toNat + 2 * f.charging.toNat + 4 * f.heating.toNat

/-- The flags an ANNOUNCE's flags byte carries; bits 3 to 7 are ignored (R180). -/
def flagsOf (n : Nat) : PeerFlags :=
  { session := n.testBit 0, charging := n.testBit 1, heating := n.testBit 2 }

/-- The bytes of a termination record (R182). -/
def TermRecord.bytes (r : TermRecord) : List Byte :=
  [r.tag, r.code, BitVec.ofNat 8 r.result.number] ++ beBytes 4 r.clampMask ++ beBytes 2 r.data.length ++ r.data

end Sys2Proof.Machine
end

