-- ==== Sys2Proof/Machine/Flags.lean ====
section
/-! DEFINITION. Pending event marks, the ATTN condition, the status byte (R170, R175) and the output pins. -/

namespace Sys2Proof.Machine

/-- The events the vehicle link posts (R175). -/
inductive Event where
  | fault | sessionClosed | stateChanged | traceFrozen | frameDropped
deriving DecidableEq, Repr

/-- Posting sets the event's mark (R175). -/
def Marks.post (m : Marks) : Event → Marks
  | .fault => { m with fault := true }
  | .sessionClosed => { m with sessionClosed := true }
  | .stateChanged => { m with stateChanged := true }
  | .traceFrozen => { m with traceFrozen := true }
  | .frameDropped => { m with frameDropped := true }

/-- At least one event is pending: ATTN is driven low (R175). -/
def Marks.any (m : Marks) : Bool :=
  m.fault || m.sessionClosed || m.stateChanged || m.traceFrozen || m.frameDropped

/-- An event is posted to the vehicle link (R175). -/
def post (e : Event) (s : State) : State := { s with vlk := { s.vlk with marks := s.vlk.marks.post e } }

/-- The status byte (R170): BUSY 7, RESULT 6, ATTN 5, HALTED 4, 0, operating state 2 to 0. -/
def statusByte (s : State) : Byte :=
  BitVec.ofNat 8
    (128 * s.vlk.inProgress.isSome.toNat + 64 * s.vlk.slot.isSome.toNat + 32 * s.vlk.marks.any.toNat
      + 16 * (decide (s.stc.op = .halted)).toNat + s.stc.op.position)

/-- BUSY of a status byte (R170). -/
def busyBit (b : Byte) : Bool := b.getLsbD 7

/-- Output BKD: the bus contactor coil is driven (R157). -/
def pinBkd (s : State) : Bool := s.stc.contactor

/-- Output HKD: the heater contactor coil is driven (R69). -/
def pinHkd (s : State) : Bool := s.htr.contactor

/-- Output ATTN, active low: driven low while an event is pending (R175). True is the low (asserted) level. -/
def pinAttn (s : State) : Bool := s.vlk.marks.any

end Sys2Proof.Machine
end

