-- ==== Sys2Proof/Machine/Operands.lean ====
section
/-! DEFINITION. Operands: sensor inputs brought into range and scaled by the trim gains (R84, R117, R179), and the configuration block of CONFIGURE read, checked, defaulted and clamped (R177, R178). -/

namespace Sys2Proof.Machine

/-! ## Sensor inputs -/

/-- An input beyond its range reads as the nearer bound (R117). -/
def clampInt (lo hi x : Int) : Int := max lo (min x hi)

/-- A quantity scaled by a gain: the raw value times the gain divided by 10000, rounded down (R179). -/
def scaled (gain : Nat) (x : Int) : Int := x * gain / 10000

/-- The meter sample an input gives, with its corrected total (R117, R119). An input is brought into range before its gain, and
not again after the gain or the correction, though R119 bounds a product by 32767 (DESIGN CHOICE, log 38). The sample holds both
currents after their gains, and it is kept and read so (DESIGN CHOICE, log 47). -/
def sampleOf (trim : TrimConstants) (offset : Int) (m : MeterInputs) : MeterSample :=
  let total := scaled trim.totalGain (clampInt (-32768) 32767 m.total)
  { voltage := (clampInt 0 10000 m.voltage).toNat, total := total,
    heater := scaled trim.heaterGain (clampInt (-32768) 32767 m.heater), corrected := total - offset }

/-- The bus-to-chassis voltage sampled, in mV (R84). -/
def sensedU (u : Int) : Int := clampInt (-600000) 600000 u

/-- The branch differential current sampled and scaled, in microampere (R84). -/
def sensedI (trim : TrimConstants) (ib : Int) : Int := scaled trim.branchGain (clampInt (-100000) 100000 ib)

/-! ## The configuration block (R177, R178, R182) -/

/-- Length of the block in bytes (R177). -/
def configLength : Nat := 91

/-- The zone a zone-order byte names. -/
def zoneOfByte (n : Nat) : Option ZoneId :=
  match n with
  | 1 => some .z1 | 2 => some .z2 | 3 => some .z3 | 4 => some .z4
  | _ => none

/-- The zone order four bytes give, when they are a permutation of 1 to 4 (R68). -/
def zoneOrderOf (bs : List Byte) : Option (List ZoneId) :=
  match bs.map (fun b => zoneOfByte b.toNat) with
  | [some a, some b, some c, some d] =>
      if a ≠ b ∧ a ≠ c ∧ a ≠ d ∧ b ≠ c ∧ b ≠ d ∧ c ≠ d then some [a, b, c, d] else none
  | _ => none

/-- The default order (R68). -/
def defaultOrder : List ZoneId := [.z1, .z2, .z3, .z4]

/-- Field `n` takes its default (R178). -/
def usesDefault (mask n : Nat) : Bool := mask.testBit n

/-- A field settled: its value, and whether it was clamped (R178). -/
def settleNat (useDefault : Bool) (dflt lo hi raw : Nat) : Nat × Bool :=
  let v := if useDefault then dflt else raw
  (max lo (min v hi), decide (v < lo ∨ hi < v))

/-- A signed field settled (R178). -/
def settleInt (useDefault : Bool) (dflt lo hi raw : Int) : Int × Bool :=
  let v := if useDefault then dflt else raw
  (max lo (min v hi), decide (v < lo ∨ hi < v))

/-- The clamp mask with bit `n` set for the fields clamped (R172). -/
def maskOf (bits : List (Nat × Bool)) : Nat := (bits.map (fun x => if x.2 then 2 ^ x.1 else 0)).sum

/-- `n` two-byte entries from `offset` on. -/
def wordsAt (bs : List Byte) : Nat → Nat → List Nat
  | _, 0 => []
  | offset, n + 1 => fieldAt bs offset 2 :: wordsAt bs (offset + 2) n

/-- The policies a policy byte gives (R178). -/
def policiesOf (n : Nat) : Policies :=
  { insBus := n.testBit 0, insUnsettled := n.testBit 1, overdraw := n.testBit 2, heaterAllOut := n.testBit 3,
    meterCal := n.testBit 4 }

/-- CONFIGURE is refused with RANGE (R177). -/
def configRefused (bs : List Byte) : Bool :=
  decide (bs.length ≠ configLength)
    || decide (fieldAt bs 4 1 = 0 ∨ 63 < fieldAt bs 4 1)
    || decide (fieldAt bs 5 1 = 0)
    || decide (fieldAt bs 6 2 = 0)
    || ((zoneOrderOf ((bs.drop 57).take 4)).isNone && !usesDefault (fieldAt bs 0 4) 13)

/-- What an accepted block gives: the settings, the clock base and the clamp mask (R178, R182). -/
structure Configured where
  settings  : Settings
  clockBase : Nat
  clampMask : Nat
deriving DecidableEq, Repr

/-- An accepted block settled field by field, with the two cross-clamps (R178). -/
def configOf (bs : List Byte) : Configured :=
  let mask := fieldAt bs 0 4
  let feeder := settleNat false 0 100 40000 (fieldAt bs 6 2)
  let margin := settleNat (usesDefault mask 3) 50 0 200 (fieldAt bs 8 2)
  let ta := settleNat (usesDefault mask 4) 500 200 2000 (fieldAt bs 10 2)
  let ist := settleNat false 0 10 3000 (fieldAt bs 12 2)
  let irating := settleNat false 0 10 3000 (fieldAt bs 14 2)
  let nominal := settleNat false 0 1000 10000 (fieldAt bs 16 2)
  let thr := settleNat (usesDefault mask 8) 2000 100 10000 (fieldAt bs 18 2)
  let tol := settleNat (usesDefault mask 9) 10 0 200 (fieldAt bs 20 2)
  let policies := if usesDefault mask 10 then Policies.default else policiesOf (fieldAt bs 22 1)
  let derateRaw := if usesDefault mask 11 then defaultDerate else wordsAt bs 23 16
  let derate := derateRaw.map (fun v => settleNat false 0 0 1000 v)
  let tPermit := settleInt (usesDefault mask 12) 0 (-500) 1000 (signed16 (fieldAt bs 55 2))
  let order := if usesDefault mask 13 then defaultOrder else (zoneOrderOf ((bs.drop 57).take 4)).getD defaultOrder
  let r1 := settleNat false 0 0 300 (fieldAt bs 61 2)
  let r2 := settleNat false 0 0 300 (fieldAt bs 63 2)
  let r3 := settleNat false 0 0 300 (fieldAt bs 65 2)
  let r4 := settleNat false 0 0 300 (fieldAt bs 67 2)
  let tTarget := settleInt (usesDefault mask 15) 100 (-200) 400 (signed16 (fieldAt bs 69 2))
  let hyst := settleInt (usesDefault mask 16) 20 0 200 (signed16 (fieldAt bs 71 2))
  let tCut := settleInt (usesDefault mask 17) 450 0 1000 (signed16 (fieldAt bs 73 2))
  let dose := settleNat (usesDefault mask 18) 3600 60 7200 (fieldAt bs 75 2)
  let epoch := settleNat (usesDefault mask 19) 30 10 300 (fieldAt bs 77 2)
  let warn := settleNat (usesDefault mask 20) 500 100 2000 (fieldAt bs 79 2)
  let alarm := settleNat (usesDefault mask 21) 100 50 1000 (fieldAt bs 81 2)
  let low := settleNat (usesDefault mask 22) 500 0 1000 (fieldAt bs 83 2)
  let peak := settleNat (usesDefault mask 23) 850 0 1000 (fieldAt bs 85 2)
  { settings :=
      { stationCode := fieldAt bs 4 1, depotCode := fieldAt bs 5 1, feederLimit := feeder.1, margin := margin.1, ta := ta.1,
        ist := ist.1, irating := irating.1, nominalV := nominal.1, busThreshold := thr.1, tolerance := tol.1,
        policies := policies, derate := derate.map (fun x => x.1), tPermit := tPermit.1, zoneOrder := order,
        ratings := ⟨r1.1, r2.1, r3.1, r4.1⟩, tTarget := tTarget.1, hysteresis := hyst.1, tCut := tCut.1,
        doseLimit := dose.1, epochInterval := epoch.1, warn := warn.1, alarm := min alarm.1 warn.1,
        lowBand := min low.1 peak.1, peakBand := peak.1 }
    clockBase := fieldAt bs 87 4
    clampMask := maskOf
      [(2, feeder.2), (3, margin.2), (4, ta.2), (5, ist.2), (6, irating.2), (7, nominal.2), (8, thr.2), (9, tol.2),
       (11, derate.any (fun x => x.2)), (12, tPermit.2), (14, r1.2 || r2.2 || r3.2 || r4.2), (15, tTarget.2),
       (16, hyst.2), (17, tCut.2), (18, dose.2), (19, epoch.2), (20, warn.2),
       (21, alarm.2 || decide (warn.1 < alarm.1)), (22, low.2 || decide (peak.1 < low.1)), (23, peak.2)] }

end Sys2Proof.Machine
end

