-- ==== Sys2Proof/Machine/Insulation.lean ====
section
/-! DEFINITION. The Insulation Unit's own state changes: epochs, cycles and estimates (chapter 6), claimant set, thresholds and trace (chapter 7), each on the record it changes. -/

namespace Sys2Proof.Machine

/-! ## Estimates (R90 to R93) -/

/-- A half is settled when its second and end samples of U agree within U_i / 100 mV (R90). -/
def halfSettled (ui : Nat) (second last : Int) : Bool := decide ((second - last).natAbs ≤ ui / 100)

/-- Both halves of six samples of U are settled (R90). -/
def cycleSettled (ui : Nat) (us : List Int) : Bool :=
  halfSettled ui (us.getD 1 0) (us.getD 2 0) && halfSettled ui (us.getD 4 0) (us.getD 5 0)

/-- The swing between the end samples of the two halves (R91, R92). -/
def cycleSwing (xs : List Int) : Int := xs.getD 2 0 - xs.getD 5 0

/-- The bus estimate R_x, in kilohm (R91). -/
def busEstimate (ui rc : Nat) (du : Int) : Nat :=
  if du ≤ 0 then 0
  else if 2 * (ui : Int) - du ≤ 0 then Config.rangeTop
  else min Config.rangeTop ((rc : Int) * du / (2 * (ui : Int) - du) / 1000).toNat

/-- The branch estimate R_b, in kilohm (R92). -/
def branchEstimate (du di : Int) : Nat :=
  if di < 2 then Config.rangeTop
  else if du ≤ 0 then 0
  else min Config.rangeTop (du / di).toNat

/-- Two estimates agree (R93). -/
def agree (a b : Nat) : Bool := decide (10 * (max a b - min a b) ≤ max a b)

/-- A track's outcome at a cycle's end (R93): accepted with a result, or the held estimate it goes on with. -/
inductive TrackStep where
  | accepted (r : Nat)
  | held (e : Option Nat)
deriving DecidableEq, Repr

/-- The test of R93: the cycle's estimate against the held one. -/
def trackStep (held est : Option Nat) : TrackStep :=
  match est with
  | none => .held none
  | some b =>
      match held with
      | none => .held (some b)
      | some a => if agree a b then .accepted ((a + b) / 2) else .held (some b)

/-- The estimate a branch track holds. -/
def BranchTrack.heldEstimate : BranchTrack → Option Nat
  | .held e => some e
  | _ => none

/-- The branch track is accepted or UNSETTLED and takes no more cycles (R93). -/
def BranchTrack.final : BranchTrack → Bool
  | .accepted _ => true
  | .unsettled => true
  | _ => false

/-- A track not final, holding what is given. -/
def BranchTrack.ofHeld : Option Nat → BranchTrack
  | some e => .held e
  | none => .absent

/-- The branch track after a cycle's end; `last`: this was the sixth cycle (R93). -/
def BranchTrack.next (last : Bool) (est : Option Nat) (b : BranchTrack) : BranchTrack :=
  if b.final then b
  else match trackStep b.heldEstimate est with
    | .accepted r => .accepted r
    | .held e => if last then .unsettled else BranchTrack.ofHeld e

/-- The branch track with the cycle in hand discarded (R93, R98, R99). -/
def BranchTrack.clearHeld (b : BranchTrack) : BranchTrack := if b.final then b else .absent

/-- What the bus track says at a cycle's end (R93, R94). -/
inductive BusOutcome where
  | going
  | accepted (r : Nat)
  | unsettled
deriving DecidableEq, Repr

/-- The bus track's outcome at the end of a cycle (R93). -/
def busOutcome (last : Bool) (held est : Option Nat) : BusOutcome :=
  match trackStep held est with
  | .accepted r => .accepted r
  | .held _ => if last then .unsettled else .going

/-! ## The epoch record -/

/-- The epoch timer's full duration, in microseconds: E x 1000 + own code x 100 ms (R86). -/
def epochDuration (cfg : Settings) : Nat := (cfg.epochInterval * 1000 + cfg.stationCode * 100) * 1000

/-- The epoch timer started for its full duration (R86). -/
def Ins.startTimer (now : Nat) (cfg : Settings) (i : Ins) : Ins := { i with epochTimer := some (now + epochDuration cfg) }

/-- The half-period of an own epoch, in ms (R87). -/
def ownHalfPeriod (sessions : Nat) : Nat := min 6000 (1000 + 200 * (1 + sessions))

/-- An own EPOCH is made up and the state becomes PENDING (R87). It is a new epoch that has no timing origin and no
cycle yet: the origin reads absent and the cycle count 0 (R85; DEDUCED, log 17). -/
def Ins.makePending (code sessions : Nat) (i : Ins) : Ins :=
  let n := (i.lastEpoch + 1) % 256
  { i with epochState := .pending, epochNumber := n, lastEpoch := n, injector := code, tHalf := ownHalfPeriod sessions,
           origin := none, cycleCount := 0 }

/-- No cycle runs. -/
def Ins.stopCycle (i : Ins) : Ins :=
  { i with halfStart := none, half := .positive, points := 0, samplesU := [], samplesI := [], discarded := false,
           source := .off }

/-- The next cycle starts at the moment given, its polarity positive (R89). -/
def Ins.startCycle (start : Nat) (i : Ins) : Ins :=
  { i with cycleCount := min (i.cycleCount + 1) 6, halfStart := some start, half := .positive, points := 0, samplesU := [],
           samplesI := [], discarded := false, source := if i.epochState = .injecting then .positive else .off }

/-- The negative half starts (R89). -/
def Ins.startNegative (start : Nat) (i : Ins) : Ins :=
  { i with halfStart := some start, half := .negative, points := 0,
           source := if i.epochState = .injecting then .negative else .off }

/-- The epoch state becomes IDLE: cycle record and tracks discarded, source off (R94, R96, R97, R102). -/
def Ins.goIdle (i : Ins) : Ins :=
  { i.stopCycle with epochState := .idle, cycleRecord := none, busTrack := none, branchTrack := .absent, resend := false,
                     lossDeadline := none }

/-- The own EPOCH finished sending: INJECTING, cycle 1 starts (R88). -/
def Ins.inject (now : Nat) (i : Ins) : Ins :=
  { i with epochState := .injecting, origin := some now, cycleCount := 0, busTrack := none, branchTrack := .absent,
           resend := false, lossDeadline := none, lastEstimate := none }.startCycle now

/-- A peer's epoch is observed from the end of its EPOCH (R95). -/
def Ins.observe (now ta injector number half : Nat) (i : Ins) : Ins :=
  { i with epochState := .observing, epochNumber := number, injector := injector, tHalf := half, origin := some now,
           cycleCount := 0, busTrack := none, branchTrack := .absent, resend := false,
           lossDeadline := some (now + (12 * half + 2 * ta) * 1000) }.startCycle now

/-- The branch record an epoch leaves (R94, R96, R97). -/
def Ins.setBranchRecord (i : Ins) : Ins :=
  { i with branchRecord := some { epoch := i.epochNumber, injector := i.injector,
                                  result := match i.branchTrack with
                                    | .accepted r => some r
                                    | _ => none } }

/-- The cycle in hand discarded while it runs on (R99). -/
def Ins.discardCycle (i : Ins) : Ins :=
  { i with discarded := true, busTrack := none, branchTrack := i.branchTrack.clearHeld }

/-- The cycle in hand cut off by a new timing origin (R93, R98, R99): tracks cleared, and UNSETTLED when it was the sixth;
otherwise the next cycle starts at the new origin. -/
def Ins.restart (now : Nat) (i : Ins) : Ins :=
  let b := { i with origin := some now, busTrack := none }
  if i.cycleCount < 6 then { b with branchTrack := i.branchTrack.clearHeld }.startCycle now
  else { b with branchTrack := if i.branchTrack.final then i.branchTrack else .unsettled }.stopCycle

/-- The injector's EPOCH heard again (R98): a new origin and a new loss deadline. -/
def Ins.reobserve (now ta : Nat) (i : Ins) : Ins :=
  { i.restart now with lossDeadline := some (now + (12 * i.tHalf + 2 * ta) * 1000) }

/-- The station takes part with its sensors: injecting, or observing with its track still open (R89, R95). -/
def Ins.sampling (i : Ins) : Bool :=
  decide (i.epochState = .injecting) || (decide (i.epochState = .observing) && !i.branchTrack.final)

/-- A sample of U and I_b taken (R89). -/
def Ins.sample (u ib : Int) (i : Ins) : Ins :=
  if i.sampling then { i with samplesU := i.samplesU ++ [u], samplesI := i.samplesI ++ [ib] } else i

/-- The moment of the next sample point of the half in hand: 2 T/3, 5 T/6, then T ms from its start (R89). -/
def Ins.nextPoint (i : Ins) : Option Nat :=
  match i.halfStart with
  | none => none
  | some h =>
      match i.points with
      | 0 => some (h + 2 * i.tHalf / 3 * 1000)
      | 1 => some (h + 5 * i.tHalf / 6 * 1000)
      | _ => some (h + i.tHalf * 1000)

/-- The first or second sample point has come (R89). -/
def Ins.pointDue (now : Nat) (i : Ins) : Bool :=
  match i.nextPoint with
  | some m => decide (i.points < 2 ∧ m ≤ now)
  | none => false

/-- The end of the half has come (R89). -/
def Ins.halfDue (now : Nat) (i : Ins) : Bool :=
  match i.nextPoint with
  | some m => decide (2 ≤ i.points ∧ m ≤ now)
  | none => false

/-- A sample point passed, its samples taken (R89). -/
def Ins.passPoint (u ib : Int) (i : Ins) : Ins := { (i.sample u ib) with points := i.points + 1 }

/-- The cycle in hand gives estimates: six samples, both halves settled, not discarded (R90, R93). -/
def Ins.givesEstimates (ui : Nat) (i : Ins) : Bool :=
  decide (i.samplesU.length = 6) && cycleSettled ui i.samplesU && !i.discarded

/-- The cycle's bus estimate, formed by the injector alone (R91). -/
def Ins.cycleBus (trim : TrimConstants) (i : Ins) : Option Nat :=
  if i.givesEstimates trim.ui && decide (i.epochState = .injecting) then
    some (busEstimate trim.ui trim.rc (cycleSwing i.samplesU))
  else none

/-- The cycle's branch estimate (R92). -/
def Ins.cycleBranch (trim : TrimConstants) (i : Ins) : Option Nat :=
  if i.givesEstimates trim.ui then some (branchEstimate (cycleSwing i.samplesU) (cycleSwing i.samplesI)) else none

/-- The bus track's outcome at the end of the cycle in hand (R93, R94). -/
def Ins.busResult (trim : TrimConstants) (i : Ins) : BusOutcome :=
  if i.epochState = .injecting then busOutcome (decide (6 ≤ i.cycleCount)) i.busTrack (i.cycleBus trim) else .going

/-- The estimate the bus track holds after the cycle. -/
def Ins.busHeld (trim : TrimConstants) (i : Ins) : Option Nat :=
  match trackStep i.busTrack (i.cycleBus trim) with
  | .held e => e
  | .accepted r => some r

/-- The tracks and the cycle record after the cycle in hand has ended (R85, R89, R93). The record before is kept until this moment
and no longer: a cycle in which an observer with a final track takes no samples leaves no record (R85, R95, R176; DEDUCED, log 33). -/
def Ins.endCycle (trim : TrimConstants) (i : Ins) : Ins :=
  { i with
    busTrack := i.busHeld trim
    branchTrack := i.branchTrack.next (decide (6 ≤ i.cycleCount)) (i.cycleBranch trim)
    cycleRecord := if i.samplesU.length = 6 then some (i.samplesU, i.samplesI) else none
    lastEstimate := match i.cycleBus trim with
      | some r => some r
      | none => i.lastEstimate }

/-- After a cycle that ends no epoch: the next one starts, or none after the sixth (R89, R95). -/
def Ins.followCycle (start : Nat) (i : Ins) : Ins := if i.cycleCount < 6 then i.startCycle start else i.stopCycle

/-- The detail of INS_UNSETTLED (R101). -/
def Ins.unsettledDetail (i : Ins) : Nat := match i.lastEstimate with
  | some r => r
  | none => 65535

/-- The epoch timer at the entry into SESSION (R86): at once when the bus record is absent or older than 2 E seconds. -/
def Ins.enterSession (now clock : Nat) (cfg : Settings) (i : Ins) : Ins :=
  let stale := match i.busRecord with
    | none => true
    | some r => decide (2 * cfg.epochInterval < clock - r.time)
  { i with epochTimer := if stale then some now else some (now + epochDuration cfg) }

/-- Epoch work ended at a departure from SESSION (R102). -/
def Ins.leaveSession (i : Ins) : Ins := { i.goIdle with epochTimer := none }

/-- An EPOCH within the ranges of R100. -/
def epochInRange (half : Nat) : Bool := decide (1200 ≤ half ∧ half ≤ 6000)

/-- A FINDING within the ranges of R100. -/
def findingInRange (result r v : Nat) : Bool := decide (result ≤ 1 ∧ r ≤ 50000 ∧ v ≤ 10000)

/-- The observed epoch's own FINDING (R96). -/
def Ins.endsObserved (code number : Nat) (i : Ins) : Bool :=
  decide (i.epochState = .observing ∧ i.epochNumber = number ∧ i.injector = code)

/-! ## Thresholds and episode (R104 to R113) -/

/-- A threshold in kilohm at bus voltage `v` (R104). -/
def thresholdK (perVolt v : Nat) : Nat := perVolt * v / 10000

/-- The three bands of a finding (R104). -/
inductive FindingBand where
  | top | middle | alarm
deriving DecidableEq, Repr

/-- The band of a finding (R104). -/
def findingBand (cfg : Settings) (r v : Nat) : FindingBand :=
  if r < thresholdK cfg.alarm v then .alarm else if r < thresholdK cfg.warn v then .middle else .top

/-- A code is a member of the claimant set. -/
def isMember (code : Nat) (cs : List Claimant) : Bool := cs.any (fun c => decide (c.code = code))

/-- A member joins, or an existing member's claim is replaced and its departed mark cleared (R107, R109). -/
def joinClaimant (c : Claimant) (cs : List Claimant) : List Claimant :=
  if isMember c.code cs then cs.map (fun x => if x.code = c.code then c else x) else cs ++ [c]

/-- The departed mark of a member set or cleared (R110). -/
def markDeparted (d : Bool) (code : Nat) (cs : List Claimant) : List Claimant :=
  cs.map (fun x => if x.code = code then { x with departed := d } else x)

/-- Members of another epoch removed at an onset (R107). -/
def pruneClaimants (epoch : Nat) (cs : List Claimant) : List Claimant := cs.filter (fun c => decide (c.epoch = epoch))

/-- The episode on leaving LISTENING, LINKED or SESSION for READY, HALTED or START (R113). -/
def Epi.leaveBus (e : Epi) : Epi :=
  let st := match e.state with
    | .warning => .normal
    | .claimWait => .normal
    | .attributed => .normal
    | x => x
  { e with state := st, window := none, claimants := if st = .normal then [] else e.claimants }

/-- The episode cleared by CLEAR FAULT (R113): the latched states return to NORMAL and the claimant set is emptied; WARNING,
CLAIM_WAIT and ATTRIBUTED are left as they are. -/
def Epi.clear (e : Epi) : Epi :=
  match e.state with
  | .localFault => { e with state := .normal, claimants := [] }
  | .busFault => { e with state := .normal, claimants := [] }
  | .doubleFault => { e with state := .normal, claimants := [] }
  | _ => e

/-- The episode permits a new session (R114). -/
def Epi.permits (e : Epi) : Bool :=
  match e.state with
  | .claimWait => false
  | .busFault => false
  | .doubleFault => false
  | _ => true

/-- The branch record's result, where it holds this epoch of this injector (R100, R115). -/
def Ins.branchFor (epoch measurer : Nat) (i : Ins) : Option (Option Nat) :=
  match i.branchRecord with
  | some b => if b.epoch = epoch ∧ b.injector = measurer then some b.result else none
  | none => none

/-- The own claim test's R_b, when the test succeeds (R107). -/
def ownClaim (op : OpState) (i : Ins) (epoch measurer alarmK : Nat) : Option Nat :=
  if op = .session then
    match i.branchFor epoch measurer with
    | some (some rb) => if rb < alarmK then some rb else none
    | _ => none
  else none

/-- An entry made in the trace, or counted as missed while the trace is frozen (R115). -/
def Trc.enter (e : TraceEntry) (t : Trc) : Trc :=
  if t.frozen then { t with missed := min (t.missed + 1) 255 }
  else { t with entries := (if t.entries.length < Config.traceCapacity then t.entries else t.entries.drop 1) ++ [e] }

/-- READ TRACE clears the frozen mark and the missed count (R116). -/
def Trc.afterRead (t : Trc) : Trc := { t with frozen := false, missed := 0 }

end Sys2Proof.Machine
end

