-- ==== Sys2Proof/Machine/Frames.lean ====
section
/-! DEFINITION. Depot-line frames: their bytes (R180), their bits on the line with stuffing (R144), and the receive framer (R154). -/

namespace Sys2Proof.Machine

/-- The kind of a payload. -/
def Payload.kind : Payload → FrameKind
  | .announce _ => .announce
  | .epoch _ _ => .epoch
  | .finding _ _ _ _ => .finding
  | .claim _ _ => .claim
  | .leave => .leave

/-- The kind byte (R180). -/
def FrameKind.byte : FrameKind → Byte
  | .claim => 0x11#8
  | .leave => 0x12#8
  | .finding => 0x13#8
  | .epoch => 0x14#8
  | .announce => 0x25#8

/-- The kind a kind byte stands for, if any (R180). -/
def kindOfByte (b : Byte) : Option FrameKind :=
  if b = 0x11#8 then some .claim
  else if b = 0x12#8 then some .leave
  else if b = 0x13#8 then some .finding
  else if b = 0x14#8 then some .epoch
  else if b = 0x25#8 then some .announce
  else none

/-- The frame's length in bytes, header and check value included (R144). -/
def FrameKind.length : FrameKind → Nat
  | .announce => 15
  | .epoch => 8
  | .finding => 11
  | .claim => 8
  | .leave => 5

/-- The payload bytes (R180). -/
def Payload.bytes : Payload → List Byte
  | .announce f =>
      beBytes 2 f.feederLimit ++ beBytes 2 f.demand ++ beBytes 1 f.weight ++ beBytes 2 f.limit ++ beBytes 2 f.intent
        ++ beBytes 1 (flagBits f.flags)
  | .epoch number half => beBytes 1 number ++ beBytes 2 half
  | .finding number result r v => beBytes 1 number ++ beBytes 1 result ++ beBytes 2 r ++ beBytes 2 v
  | .claim number rb => beBytes 1 number ++ beBytes 2 rb
  | .leave => []

/-- Header and payload, over which the check value is computed (R145). -/
def Frame.body (f : Frame) : List Byte :=
  [f.payload.kind.byte] ++ beBytes 1 f.code ++ beBytes 1 f.depot ++ f.payload.bytes

/-- All bytes of a frame: header, payload, check value (R180). -/
def Frame.bytes (f : Frame) : List Byte := f.body ++ beBytes 2 (crc16 f.body).toNat

/-- The stuffed bits: after every 8 consecutive recessive bits one dominant bit, none after the last bit; `run` recessive
bits stand before (R144). -/
def stuff : Nat → List Bool → List Bool
  | _, [] => []
  | run, b :: bs =>
      if run = 8 then false :: b :: stuff (if b then 1 else 0) bs
      else b :: stuff (if b then run + 1 else 0) bs

/-- `n` bits of a frame read from the line with stuff bits removed; none when the line ends before them or a stuff bit is
missing (R144, R154). -/
def unstuff : Nat → Nat → List Bool → Option (List Bool)
  | 0, _, _ => some []
  | _ + 1, _, [] => none
  | n + 1, run, b :: bs =>
      if run = 8 then (if b then none else unstuff (n + 1) 0 bs)
      else (unstuff n (if b then run + 1 else 0) bs).map (b :: ·)

/-- What the line carries after `n` bits of a frame, stuff bits not counted; none where the frame does not reach its end there
(R144, R154). -/
def afterBits : Nat → Nat → List Bool → Option (List Bool)
  | 0, _, rest => some rest
  | _ + 1, _, [] => none
  | n + 1, run, b :: bs =>
      if run = 8 then (if b then none else afterBits (n + 1) 0 bs)
      else afterBits n (if b then run + 1 else 0) bs

/-- The bits of a frame on the line: the dominant start bit, then the stuffed bits of its bytes (R144). -/
def Frame.lineBits (f : Frame) : List Bool := false :: stuff 0 (bytesBits f.bytes)

/-- The payload a kind's payload bytes carry (R180). -/
def payloadOf (k : FrameKind) (p : List Byte) : Payload :=
  match k with
  | .announce =>
      .announce { feederLimit := fieldAt p 0 2, demand := fieldAt p 2 2, weight := fieldAt p 4 1, limit := fieldAt p 5 2,
                  intent := fieldAt p 7 2, flags := flagsOf (fieldAt p 9 1) }
  | .epoch => .epoch (fieldAt p 0 1) (fieldAt p 1 2)
  | .finding => .finding (fieldAt p 0 1) (fieldAt p 1 1) (fieldAt p 2 2) (fieldAt p 4 2)
  | .claim => .claim (fieldAt p 0 1) (fieldAt p 1 2)
  | .leave => .leave

/-- The header checks of R154: a station code of 1 to 63, and the station's own depot code. -/
def headerOk (ownDepot code depot : Nat) : Bool := decide (1 ≤ code ∧ code ≤ 63 ∧ depot = ownDepot)

/-- The frame that an arrival command stands for: the header as received and the payload (R145, R180). -/
def arrivedFrame (h : Header) (p : Payload) : Frame := { code := h.code, depot := h.depot, payload := p }

/-- The kind that the framer reads from the header after the start bit, if it is one of the five (R154). -/
def lineKind (bits : List Bool) : Option FrameKind :=
  match unstuff 24 0 bits with
  | none => none
  | some head => kindOfByte ((bitsBytes 3 head).getD 0 0)

/-- What the framer has read beyond the last bit of a whole frame, sound or not; none where no frame reaches its end (R154). -/
def beyondFrame (line : List Bool) : Option (List Bool) :=
  match line with
  | [] => none
  | start :: bits =>
      if start then none
      else
        match lineKind bits with
        | none => none
        | some k => afterBits (8 * k.length) 0 bits

/-- The receive framer on a whole line reading from the start bit on: the frame it hands on, or none where it discards (R154). -/
def readFrame (ownDepot : Nat) (line : List Bool) : Option Frame :=
  match line with
  | [] => none
  | start :: bits =>
      if start then none
      else
        match lineKind bits with
        | none => none
        | some k =>
            match unstuff (8 * k.length) 0 bits with
            | none => none
            | some all =>
                let bytes := bitsBytes k.length all
                let body := bytes.take (k.length - 2)
                let code := fieldAt bytes 1 1
                let depot := fieldAt bytes 2 1
                if headerOk ownDepot code depot = true ∧ fieldAt bytes (k.length - 2) 2 = (crc16 body).toNat then
                  some { code := code, depot := depot, payload := payloadOf k (body.drop 3) }
                else none

end Sys2Proof.Machine
end

