-- ==== Sys2Proof/Machine/Line.lean ====
section
/-! DEFINITION. The Depot Line Interface's own state changes: transmit queue (R146 to R148), transmitter (R149 to R153), framer bookkeeping (R154), line sequence (R153). -/

namespace Sys2Proof.Machine

/-- The entry of a kind (R146). -/
def TxQueue.get (q : TxQueue) : FrameKind → Option TxEntry
  | .announce => q.announce
  | .epoch => q.epoch
  | .finding => q.finding
  | .claim => q.claim
  | .leave => q.leave

/-- The queue with the entry of one kind replaced. -/
def TxQueue.set (q : TxQueue) (k : FrameKind) (e : Option TxEntry) : TxQueue :=
  match k with
  | .announce => { q with announce := e }
  | .epoch => { q with epoch := e }
  | .finding => { q with finding := e }
  | .claim => { q with claim := e }
  | .leave => { q with leave := e }

/-- The kinds in order of priority, highest first (R146). -/
def priorityOrder : List FrameKind := [.claim, .leave, .finding, .epoch, .announce]

/-- Whether an operating state sends a kind (R148). -/
def sends (op : OpState) (k : FrameKind) : Bool :=
  match op with
  | .start => false
  | .listening => false
  | .linked => true
  | .session => true
  | .ready => decide (k = .claim ∨ k = .leave)
  | .halted => decide (k = .claim ∨ k = .leave)

/-- The operating states in which the framer takes frames (R154) and the Peer Table block takes arrivals (R3). -/
def OpState.takesFrames : OpState → Bool
  | .listening => true
  | .linked => true
  | .session => true
  | _ => false

/-- The kinds queued, in order of priority. -/
def TxQueue.kinds (q : TxQueue) : List FrameKind := priorityOrder.filter (fun k => (q.get k).isSome)

/-- The highest-priority kind queued that the operating state sends (R149). -/
def nextKind (op : OpState) (q : TxQueue) : Option FrameKind := q.kinds.find? (sends op)

/-- The transmitter's states (R149). -/
inductive TxState where
  | quiet | deferring | sending | backoff
deriving DecidableEq, Repr

/-- The transmitter state (R149): it follows from the attempt, the backoff and the queue. -/
def Dli.txState (d : Dli) (op : OpState) : TxState :=
  if d.attempt.isSome then .sending
  else if d.backoff.isSome then .backoff
  else if (nextKind op d.queue).isSome then .deferring
  else .quiet

def TxState.position : TxState → Nat
  | .quiet => 0 | .deferring => 1 | .sending => 2 | .backoff => 3

/-- An attempt of this kind is on the line. -/
def Dli.attempting (d : Dli) (k : FrameKind) : Bool :=
  match d.attempt with
  | some a => decide (a.kind = k)
  | none => false

/-- The attempt with its entry marked as asked for again (R147). -/
def Attempt.refresh (a : Attempt) : Attempt := { a with refreshed := true }

/-- An owner queues a frame (R147). -/
def Dli.queueFrame (op : OpState) (k : FrameKind) (c : TxContent) (d : Dli) : Dli :=
  if op = .start then d
  else if d.attempting k then
    { d with queue := d.queue.set k (some { content := c, failed := 0 }), attempt := d.attempt.map Attempt.refresh }
  else if (d.queue.get k).isSome && decide (k = .announce) then d
  else { d with queue := d.queue.set k (some { content := c, failed := 0 }) }

/-- The gap that the transmitter waits for is complete from the one moment, the idle line that the framer waits for from the
other (R149, R154). -/
def Dli.idleFrom (gap framer : Nat) (d : Dli) : Dli := { d with gapFrom := gap, framerFrom := framer }

/-- The recessive bits with which a reading of the line ends, up to the 12 of a gap (R149). -/
def recessiveTail (bits : List Bool) : Nat := min 12 (bits.reverse.takeWhile id).length

/-- The moment at which the line has been recessive for 12 bit times, after bits that end now: the recessive bits at their end
count, those of a frame's own last bits too. R149 says 'at which the line has been recessive for at least 12 bit times'; the
example of chapter 10 counts each gap from the frame's end, and an attempt at that later moment starts too, as ATTEMPT_START
says (R144, R149; DESIGN CHOICE, log 22). -/
def idleAfter (now : Nat) (bits : List Bool) : Nat := now + Config.gapMicros - Config.bitMicros * recessiveTail bits

/-- The moment from which the framer takes a start bit, after a reading that ends now: 12 bit times after the end of a whole frame,
whatever bits the frame ends with, and in any case once the line is idle (R154). -/
def framerAfter (now : Nat) (bits : List Bool) : Nat :=
  match beyondFrame bits with
  | some rest => max (idleAfter now bits) (now + Config.gapMicros - Config.bitMicros * rest.length)
  | none => idleAfter now bits

/-- The moment at which an attempt's start bit began (R149). -/
def Attempt.started (a : Attempt) : Nat := a.ends - Config.bitMicros * a.frame.lineBits.length

/-- The moment since which the line is recessive where the attempt is cut off now: the end of the last dominant bit that it drove
(R147, R149). -/
def Attempt.recessiveSince (now : Nat) (a : Attempt) : Nat :=
  let bits := a.frame.lineBits.take ((now - a.started + (Config.bitMicros - 1)) / Config.bitMicros)
  min now (a.started + Config.bitMicros * (bits.length - (bits.reverse.takeWhile id).length))

/-- What a failed attempt read back: its bits as sent, up to the one that ends now, which read back otherwise (R150). -/
def Attempt.readBack (now : Nat) (a : Attempt) : List Bool :=
  let bits := a.frame.lineBits.take ((now - a.started) / Config.bitMicros)
  bits.dropLast ++ (bits.getLast?.map not).toList

/-- The attempt on the line is cut off: the station stops driving, the line returns recessive, and no start bit is taken
before it has been idle (R147, R154). A frame that another station started together with the attempt is not taken, because its
start bit lies before the framer's mark: R150 lets a station go on receiving after a failed attempt and says nothing of a cut-off
one (DESIGN CHOICE, log 48). -/
def Dli.cutOff (now : Nat) (a : Attempt) (d : Dli) : Dli :=
  let idle := a.recessiveSince now + Config.gapMicros
  { d.idleFrom idle idle with attempt := none }

/-- The Insulation Unit withdraws its EPOCH entry (R147). -/
def Dli.withdrawEpoch (now : Nat) (d : Dli) : Dli :=
  let d1 := { d with queue := d.queue.set .epoch none }
  match d.attempt with
  | some a => if a.kind = .epoch then d1.cutOff now a else d1
  | none => d1

/-- The queue cut back to CLAIM and LEAVE (R148). -/
def TxQueue.urgent (q : TxQueue) : TxQueue := { TxQueue.empty with claim := q.claim, leave := q.leave }

/-- An attempt of a kind other than CLAIM and LEAVE is cut off (R148). -/
def Dli.cutOffOthers (now : Nat) (d : Dli) : Dli :=
  match d.attempt with
  | some a => if a.kind = .claim ∨ a.kind = .leave then d else d.cutOff now a
  | none => d

/-- Any attempt is cut off (R148). -/
def Dli.cutOffAny (now : Nat) (d : Dli) : Dli :=
  match d.attempt with
  | some a => d.cutOff now a
  | none => d

/-- The framer stops taking frames: a frame begun before this moment may still finish (R11, R154). -/
def Dli.stopFramer (now : Nat) (d : Dli) : Dli :=
  match d.framerUntil with
  | some _ => d
  | none => { d with framerUntil := some now }

/-- Entry to READY: queue cut back, other attempts cut off, announce timer stopped, framer stopped, and a backoff ended when
the queue is left empty (R148, R153, R162). R153 ends a backoff at "a change of operating state that empties the queue"; that a
queue already empty before the change, as after a drop in HALTED, ends it too is the model's choice (DESIGN CHOICE, log 34). -/
def Dli.enterReady (now : Nat) (d : Dli) : Dli :=
  let q := d.queue.urgent
  let d1 := (d.cutOffOthers now).stopFramer now
  { d1 with queue := q, announce := none, backoff := if q = TxQueue.empty then none else d1.backoff }

/-- Entry to HALTED: other attempts cut off, other entries held, announce timer stopped, framer stopped (R148, R163). -/
def Dli.enterHalted (now : Nat) (d : Dli) : Dli :=
  let d1 := (d.cutOffOthers now).stopFramer now
  { d1 with announce := none }

/-- Entry to LISTENING: queue emptied, any attempt cut off, a backoff ended; the framer takes start bits from now (R148, R153, R159). -/
def Dli.enterListening (now : Nat) (d : Dli) : Dli :=
  let d1 := d.cutOffAny now
  { d1 with queue := TxQueue.empty, backoff := none, framerFrom := max d1.framerFrom now, framerUntil := none }

/-- The Dli after either reset (R45, R146, R153, R154, R156); the moments of the line's traffic are kept. -/
def Dli.afterReset (now : Nat) (d : Dli) : Dli :=
  { Dli.reset with gapFrom := (d.cutOffAny now).gapFrom, framerFrom := (d.cutOffAny now).framerFrom }

/-- One step of the line sequence (R153): shift left by one, the new lowest bit the exclusive-or of bits 15, 13, 12 and 10. -/
def sequenceStep (r : Word16) : Word16 :=
  (r <<< 1) ||| BitVec.ofNat 16 ((r.getLsbD 15 ^^ r.getLsbD 13) ^^ (r.getLsbD 12 ^^ r.getLsbD 10)).toNat

/-- `n` steps of the line sequence. -/
def sequenceSteps : Nat → Word16 → Word16
  | 0, r => r
  | n + 1, r => sequenceSteps n (sequenceStep r)

/-- A draw first advances the register by 8 steps (R153). -/
def sequenceDraw (r : Word16) : Word16 := sequenceSteps 8 r

/-- The value CONFIGURE loads: both bytes equal the station code (R153). -/
def sequenceSeed (code : Nat) : Word16 := BitVec.ofNat 16 (code * 256 + code)

/-- The announce period drawn from the register, in microseconds: T_a plus the jitter of R45. -/
def announcePeriod (ta : Nat) (r : Word16) : Nat :=
  let j := ta / 8
  (ta + r.toNat % (2 * j + 1) - j) * 1000

/-- The next announce period starts at the moment given (R45). -/
def Dli.startAnnounce (ta : Nat) (start : Nat) (d : Dli) : Dli :=
  let r := sequenceDraw d.sequence
  { d with sequence := r, announce := some (start + announcePeriod ta r) }

/-- An attempt starts with the frame given (R149). -/
def Dli.startAttempt (now : Nat) (k : FrameKind) (f : Frame) (d : Dli) : Dli :=
  { d with attempt := some { kind := k, frame := f, ends := now + Config.bitMicros * f.lineBits.length, refreshed := false } }

/-- The attempt has been sent: its entry leaves the queue unless it was asked for again, and the line must go idle; a dominant bit
within the 12 bit times after the frame's end starts no frame (R149, R151, R154). -/
def Dli.sent (now : Nat) (a : Attempt) (d : Dli) : Dli :=
  { d.idleFrom (idleAfter now a.frame.lineBits) (now + Config.gapMicros) with
    queue := if a.refreshed then d.queue else d.queue.set a.kind none, attempt := none }

/-- The entry's count after a failed attempt (R147, R152). -/
def TxEntry.afterFailure (a : Attempt) (e : TxEntry) : TxEntry :=
  if a.kind = .announce then e else if a.refreshed then { e with failed := 0 } else { e with failed := e.failed + 1 }

/-- The entry is dropped by this failure: its count reaches 4 (R152). -/
def dropsOn (a : Attempt) (d : Dli) : Bool :=
  match d.queue.get a.kind with
  | some e => decide (Config.dropAttempts ≤ (e.afterFailure a).failed)
  | none => false

/-- The backoff drawn after a failure: the register's lowest 5 bits, in slots (R153). -/
def Dli.startBackoff (now : Nat) (d : Dli) : Dli :=
  let r := sequenceDraw d.sequence
  { d with sequence := r, backoff := some (now + Config.slotMicros * (r.toNat % 32)) }

/-- The attempt failed: count, drop and drop record, backoff (R152, R153, R156). The gap counts from the
bits read back (R149, log 22). The framer goes on with the winning frame, which began with the attempt: its start bit is taken though it
lies within the 12 bit times after a frame that ended recessive (R150). -/
def Dli.failed (now : Nat) (a : Attempt) (d : Dli) : Dli :=
  let d1 := { d with attempt := none, gapFrom := idleAfter now (a.readBack now), framerFrom := min d.framerFrom a.started }
  let d2 :=
    if dropsOn a d then
      { d1 with queue := d1.queue.set a.kind none, dropKind := some a.kind, dropCount := min (d1.dropCount + 1) Config.countTop }
    else { d1 with queue := d1.queue.set a.kind ((d1.queue.get a.kind).map (TxEntry.afterFailure a)) }
  d2.startBackoff now

/-- The payload of an entry other than ANNOUNCE (R145). -/
def TxContent.payload : TxContent → Payload
  | .epoch n h => .epoch n h
  | .finding n x r v => .finding n x r v
  | .claim n rb => .claim n rb
  | .none => .leave

end Sys2Proof.Machine
end

