-- ==== Sys2Proof/Machine/Share.lean ====
section
/-! DEFINITION. The peer table's own operations (chapter 1), the grant computation (chapter 2) and the intent, hold and draw limit (chapter 3), each on the record it changes. -/

namespace Sys2Proof.Machine

/-! ## Peer entries -/

/-- Reserved amount: the larger of limit and intent (R2). -/
def PeerEntry.reserved (e : PeerEntry) : Nat := max e.share.limit e.share.intent

/-- The entry of a code. -/
def findEntry (code : Nat) (es : List PeerEntry) : Option PeerEntry := es.find? (fun e => e.code == code)

/-- Every entry of a code replaced by its image. -/
def updateEntry (code : Nat) (f : PeerEntry → PeerEntry) (es : List PeerEntry) : List PeerEntry :=
  es.map (fun e => if e.code = code then f e else e)

/-- The entry of a code removed. -/
def removeEntry (code : Nat) (es : List PeerEntry) : List PeerEntry := es.filter (fun e => e.code != code)

/-- An entry inserted in ascending order of code. -/
def insertEntry (e : PeerEntry) : List PeerEntry → List PeerEntry
  | [] => [e]
  | x :: xs => if e.code < x.code then e :: x :: xs else x :: insertEntry e xs

/-- An ANNOUNCE overwrites the share fields and makes the entry FRESH, silent for 0 and heard (R5). -/
def PeerEntry.announced (f : ShareFields) (e : PeerEntry) : PeerEntry :=
  { e with share := f, freshness := .fresh, silence := 0, heard := true }

/-- An EPOCH, FINDING or CLAIM sets the silence to 0 and makes the entry FRESH (R6). -/
def PeerEntry.refreshed (e : PeerEntry) : PeerEntry := { e with freshness := .fresh, silence := 0 }

/-- The share fields of an ANNOUNCE are within the ranges of R1 (R3). -/
def shareInRange (f : ShareFields) : Bool :=
  decide (100 ≤ f.feederLimit ∧ f.feederLimit ≤ 40000 ∧ f.demand ≤ 3000 ∧ 1 ≤ f.weight ∧ f.weight ≤ 15 ∧
    f.limit ≤ 3000 ∧ f.intent ≤ 3000)

/-- The sum of the reserved amounts of all entries (R28, R129). -/
def reservedSum (es : List PeerEntry) : Nat := (es.map PeerEntry.reserved).sum

/-- S: the sum of the reserved amounts of the STALE entries (R22). -/
def frozenSum (es : List PeerEntry) : Nat := reservedSum (es.filter (fun e => e.freshness = .stale))

/-- The least feeder limit heard, or the own one (R14). -/
def effectiveFeeder (own : Nat) (es : List PeerEntry) : Nat := es.foldl (fun m e => min m e.share.feederLimit) own

/-- The entries whose flags include SESSION (R87). -/
def sessionPeers (es : List PeerEntry) : Nat := (es.filter (fun e => e.share.flags.session)).length

/-! ## The grant (R21 to R29) -/

/-- A participant of the water-fill (R23). -/
structure Participant where
  own    : Bool
  code   : Nat
  demand : Nat
  weight : Nat
deriving DecidableEq, Repr

/-- The order of the pass: demand per weight ascending by cross products, ties by lower code (R25). -/
def Participant.before (p q : Participant) : Bool :=
  decide (p.demand * q.weight < q.demand * p.weight ∨ (p.demand * q.weight = q.demand * p.weight ∧ p.code < q.code))

/-- Insertion in the order of R25. -/
def insertParticipant (p : Participant) : List Participant → List Participant
  | [] => [p]
  | q :: qs => if p.before q then p :: q :: qs else q :: insertParticipant p qs

/-- The participants in the order of R25. -/
def orderParticipants : List Participant → List Participant
  | [] => []
  | p :: ps => insertParticipant p (orderParticipants ps)

/-- The pass (R26): each participant takes the smaller of its demand and its fair part of the pool `r` by weight in `w`. -/
def waterPass : Nat → Nat → List Participant → List (Participant × Nat)
  | _, _, [] => []
  | r, w, p :: ps =>
      let g := min p.demand (r * p.weight / w)
      (p, g) :: waterPass (r - g) (w - p.weight) ps

/-- The water-fill grants (R24, R26). -/
def waterFill (pool : Nat) (ps : List Participant) : List (Participant × Nat) :=
  if (ps.map Participant.demand).sum ≤ pool then ps.map (fun p => (p, p.demand))
  else waterPass pool (ps.map Participant.weight).sum (orderParticipants ps)

/-- The participants: the station itself and every FRESH entry (R23). -/
def participants (code demand weight : Nat) (es : List PeerEntry) : List Participant :=
  { own := true, code := code, demand := demand, weight := weight } ::
    (es.filter (fun e => e.freshness = .fresh)).map
      (fun e => { own := false, code := e.code, demand := e.share.demand, weight := e.share.weight })

/-- The station's own water-fill grant g (R27). -/
def ownFill (fill : List (Participant × Nat)) : Nat :=
  match fill.find? (fun x => x.1.own) with
  | some x => x.2
  | none => 0

/-- The inputs of a recomputation (R20). -/
structure GrantInputs where
  feeder   : Nat
  margin   : Nat
  entries  : List PeerEntry
  demand   : Nat
  weight   : Nat
  code     : Nat
  inSession : Bool
  unlisted : Bool
deriving DecidableEq, Repr

/-- The zero cause (R29). -/
def GrantInputs.cause (i : GrantInputs) : ZeroCause :=
  if ¬ i.inSession then .noSession else if i.unlisted then .unlisted else .none

/-- One recomputation of the grant record (R21 to R29). -/
def computeGrant (i : GrantInputs) : GrantRecord :=
  let a := i.feeder * (1000 - i.margin) / 1000
  let s := frozenSum i.entries
  let a1 := a - s
  let g := ownFill (waterFill a1 (participants i.code i.demand i.weight i.entries))
  let b : Int := (a : Int) - (reservedSum i.entries : Int)
  { available := a, frozen := s, pool := a1, own := g, balance := b,
    grant := if i.cause = .none then min g b.toNat else 0, zeroCause := i.cause }

/-- The inputs as they stand (R20). -/
def State.grantInputs (s : State) : GrantInputs :=
  { feeder := s.ptb.feeder, margin := s.cfg.margin, entries := s.ptb.entries, demand := s.dmu.ownDemand,
    weight := s.dmu.weight, code := s.cfg.stationCode,
    inSession := s.ses.openRecord.isSome && decide (s.stc.op = .session), unlisted := s.ptb.unlisted.isSome }

/-! ## Applying a grant, and the hold (R37 to R40) -/

/-- The hold ended: STEADY, nothing pending, hold start absent, hold timer stopped. -/
def Shu.steady (u : Shu) : Shu :=
  { u with hold := .steady, raisePending := false, holdStart := none, holdTimer := none }

/-- The grant in the record applied to L and I, by the first case of R37 that matches (R38, R39, R49). -/
def Shu.applyGrant (u : Shu) : Shu :=
  let g := u.record.grant
  if g < u.limit then { u.steady with limit := g, intent := g, overCount := 0, exclusion := 4 }
  else if g < u.intent then
    if g = u.limit then { u.steady with intent := g } else { u with intent := g }
  else if u.intent < g then
    { u with intent := g, hold := .holding, raisePending := true, holdStart := none, holdTimer := none }
  else u

/-- Applying the grant queues an ANNOUNCE in every case but the last of R37. -/
def Shu.grantMoves (u : Shu) : Bool := decide (u.record.grant < u.limit ∨ u.record.grant ≠ u.intent)

/-- At least 2 x T_a has passed since the hold start (R40). At exactly that moment a test made before the hold timer's expiry is
taken finds it not quite passed, and the test at the expiry finds it passed (R41, log 32). -/
def Shu.holdPassed (now ta : Nat) (u : Shu) : Bool :=
  match u.holdStart with
  | some h => decide (h + 2 * ta * 1000 < now ∨ h + 2 * ta * 1000 = now ∧ u.holdTimer = none)
  | none => false

/-- The conditions of hold completion (R40, R41). -/
def holdComplete (now ta : Nat) (es : List PeerEntry) (u : Shu) : Bool :=
  decide (u.hold = .holding) && !u.raisePending && u.holdPassed now ta &&
    es.all (fun e => decide (e.freshness = .stale) || e.heard)

/-- The hold completes: L becomes the smaller of I and G, and the peak follows a rise (R40, R51). -/
def Shu.complete (u : Shu) : Shu :=
  let l := min u.intent u.record.grant
  { u.steady with limit := l, peak := if u.limit < l then max u.peak l else u.peak }

/-- A sent ANNOUNCE that carried `carried` starts the hold when a raise is pending and is covered (R38). -/
def startsHold (carried : Nat) (u : Shu) : Bool := u.raisePending && decide (u.intent ≤ carried)

/-- The hold starts at the moment the send finished (R38). -/
def Shu.startHold (now ta : Nat) (u : Shu) : Shu :=
  { u with raisePending := false, holdStart := some now, holdTimer := some (now + 2 * ta * 1000) }

/-- The setpoint brought down at once to a lowered charger allowance (R46). -/
def Shu.lowerSetpoint (allow : Nat) (u : Shu) : Shu := { u with setpoint := min u.setpoint allow }

/-- The setpoint's ramp at a meter sample (R46). -/
def Shu.ramp (allow : Nat) (u : Shu) : Shu :=
  { u with setpoint := if u.setpoint < allow then min (u.setpoint + Config.setpointStep) allow else u.setpoint }

/-- The Share Unit's values outside SESSION: setpoint 0, enable off, supervision cleared (R46, R48). -/
def Shu.leaveSession (u : Shu) : Shu :=
  { u with setpoint := 0, enable := false, overCount := 0, overWait := false, exclusion := 0 }

/-- The Share Unit's values at session open: enable on, peak 0, supervision cleared (R43, R46, R48, R51). -/
def Shu.enterSession (u : Shu) : Shu :=
  { u with enable := true, peak := 0, overCount := 0, overWait := false, exclusion := 0 }

/-- The overdraw bound, in cA (R48). -/
def overdrawBound (limit tolerance : Nat) : Int := ((limit + tolerance) * 10 : Nat)

/-- A sample is excluded from the overdraw count (R49). -/
def Shu.excludes (slot : Bool) (u : Shu) : Bool := slot || decide (0 < u.exclusion)

/-- The overdraw count after one sample; the raise on reaching 4 is `Shu.overdraws` (R48, R49). -/
def Shu.supervise (slot : Bool) (corrected bound : Int) (u : Shu) : Shu :=
  if u.excludes slot then { u with exclusion := u.exclusion - 1 }
  else if corrected ≤ bound then { u with overCount := 0, overWait := false }
  else if u.overWait then u
  else { u with overCount := u.overCount + 1 }

/-- The supervised sample brought the count to 4: OVERDRAW is raised (R48, R50). -/
def Shu.overdraws (slot : Bool) (corrected bound : Int) (u : Shu) : Bool :=
  !u.excludes slot && decide (bound < corrected) && !u.overWait && decide (4 ≤ u.overCount + 1)

/-- OVERDRAW raised under the continue policy: the count becomes 0 and the wait is set (R50). -/
def Shu.waitAfterOverdraw (u : Shu) : Shu := { u with overCount := 0, overWait := true }

end Sys2Proof.Machine
end

