-- ==== Sys2Proof/Machine/Demand.lean ====
section
/-! DEFINITION. The Demand Unit's arithmetic (chapter 4) and the heater zones' own moves (chapter 5). -/

namespace Sys2Proof.Machine

/-! ## Zones -/

def Quad.get {α : Type} (q : Quad α) : ZoneId → α
  | .z1 => q.q1 | .z2 => q.q2 | .z3 => q.q3 | .z4 => q.q4

def Quad.set {α : Type} (q : Quad α) (z : ZoneId) (x : α) : Quad α :=
  match z with
  | .z1 => { q with q1 := x } | .z2 => { q with q2 := x } | .z3 => { q with q3 := x } | .z4 => { q with q4 := x }

def Quad.map {α β : Type} (f : α → β) (q : Quad α) : Quad β := ⟨f q.q1, f q.q2, f q.q3, f q.q4⟩

def Quad.list {α : Type} (q : Quad α) : List α := [q.q1, q.q2, q.q3, q.q4]

/-- The four zones. -/
def allZones : List ZoneId := [.z1, .z2, .z3, .z4]

/-- The dose: heating time in whole seconds (R77). -/
def Zone.dose (z : Zone) : Nat := z.heatTime / 1000000

/-- The zone's switch is closed, and its output ZD driven, while and only while it is HEATING (R69). -/
def Zone.heats (z : Zone) : Bool := decide (z.state = .heating)

/-- The zone asks for heat: WAITING or HEATING (R61). -/
def Zone.asks (z : Zone) : Bool := decide (z.state = .waiting ∨ z.state = .heating)

/-- Outputs ZD1 to ZD4 (R69). -/
def pinZd (s : State) (z : ZoneId) : Bool := (s.htr.zones.get z).heats

/-- Any zone is HEATING. -/
def Quad.anyHeating (q : Quad Zone) : Bool := q.list.any Zone.heats

/-- The rated currents of the zones for which `p` holds. -/
def ratedSum (p : Zone → Bool) (zones : Quad Zone) (ratings : Quad Nat) : Nat :=
  (allZones.map (fun z => if p (zones.get z) then ratings.get z else 0)).sum

/-- The state after a conversion, by the first row of R71 that applies. -/
def Zone.nextState (cfg : Settings) (c : Conversion) (z : Zone) : ZoneState :=
  match z.state, c with
  | .out, _ => .out
  | _, .openCircuit => .out
  | _, .shortCircuit => .out
  | st, .reading d =>
      if cfg.tCut < d then .out
      else match st with
        | .warm => if d < cfg.tTarget then .waiting else .warm
        | .waiting => if cfg.tTarget ≤ d then .warm else .waiting
        | .heating => if cfg.tTarget + cfg.hysteresis ≤ d then .warm else .heating
        | .out => .out

/-- Why a conversion takes a zone OUT (R71). -/
def outCauseOf : Conversion → OutCause
  | .openCircuit => .sensorOpen
  | .shortCircuit => .sensorShort
  | .reading _ => .overtemp

/-- A conversion's result as the zone takes it: a reading outside -500 to 1000 is no valid reading (R70); the converter
gives OPEN or SHORT beyond its scale's ends, and the model takes a reading beyond them as the nearer bound (log 11). -/
def settledConversion : Conversion → Conversion
  | .reading d => .reading (max (-500) (min d 1000))
  | c => c

/-- The heating time of a zone whose heating ends otherwise than at the dose limit: it stops just short of the limit, so that
in a tie with the limit no INEFFECTIVE arises (R78). Just short is one microsecond (DEDUCED, log 14). -/
def Zone.heatTimeShort (limit : Nat) (z : Zone) : Nat := if z.heats then min z.heatTime (limit * 1000000 - 1) else z.heatTime

/-- A zone after a conversion: a valid reading is stored, then the zone moves (R71). A zone whose heating this ends keeps a
heating time just short of the dose limit (R78). -/
def Zone.convert (cfg : Settings) (c : Conversion) (z : Zone) : Zone :=
  let n := z.nextState cfg c
  { z with
    state := n
    heatTime := if n = .heating then z.heatTime else z.heatTimeShort cfg.doseLimit
    temp := match c with
      | .reading d => some d
      | _ => z.temp
    outCause := if n = .out ∧ z.state ≠ .out then some (outCauseOf c) else z.outCause }

/-- A zone that reaches the dose limit (R78). -/
def Zone.exhaust (z : Zone) : Zone := { z with state := .out, outCause := some .ineffective }

/-- A zone switched off goes to WAITING, its dose below the limit (R76, R78, R83). -/
def Zone.switchOff (limit : Nat) (z : Zone) : Zone :=
  if z.heats then { z with state := .waiting, heatTime := z.heatTimeShort limit } else z

/-- The first zone in the configured order that is WAITING (R74). -/
def firstWaiting (order : List ZoneId) (zones : Quad Zone) : Option ZoneId :=
  order.find? (fun z => decide ((zones.get z).state = .waiting))

/-- HEATING zones switched off in the order given until the ratings fit the allowance (R76). -/
def shedZones (limit allow : Nat) (ratings : Quad Nat) : List ZoneId → Quad Zone → Quad Zone
  | [], zones => zones
  | z :: zs, zones =>
      if ratedSum Zone.heats zones ratings ≤ allow then zones
      else shedZones limit allow ratings zs (zones.set z ((zones.get z).switchOff limit))

/-- The switch-off for allowance: in reverse configured order (R76). -/
def Htr.obey (allow : Nat) (cfg : Settings) (h : Htr) : Htr :=
  { h with zones := shedZones cfg.doseLimit allow cfg.ratings cfg.zoneOrder.reverse h.zones }

/-- The zone a switch-on test would switch on (R74). A zone of rating 0 fits an allowance of 0, as R68 says, in a session too whose
first hold has not completed, though R83 lets the first switch-on of a session wait for an allowance above 0 (DESIGN CHOICE, log 43). -/
def Htr.candidate (inSession : Bool) (allow : Nat) (cfg : Settings) (h : Htr) : Option ZoneId :=
  match firstWaiting cfg.zoneOrder h.zones with
  | none => none
  | some z =>
      if inSession && !h.window && h.stagger.isNone
          && decide (ratedSum Zone.heats h.zones cfg.ratings + cfg.ratings.get z ≤ allow)
      then some z else none

/-- The switch-on test (R74, R81): the candidate heats, the contactor closes, the idle timer stops, the stagger starts. -/
def Htr.switchOn (now : Nat) (inSession : Bool) (allow : Nat) (cfg : Settings) (h : Htr) : Htr :=
  match h.candidate inSession allow cfg with
  | none => h
  | some z =>
      { h with zones := h.zones.set z { h.zones.get z with state := .heating }, contactor := true, idle := none,
               stagger := some (now + Config.staggerMicros) }

/-- The idle timer's start when an event has left no zone HEATING in SESSION with the contactor closed (R82). -/
def Htr.startIdle (now : Nat) (inSession had : Bool) (h : Htr) : Htr :=
  if inSession && had && h.contactor && !h.zones.anyHeating then { h with idle := some (now + Config.idleMicros) } else h

/-- The heater at a departure from SESSION (R83). -/
def Htr.leaveSession (limit : Nat) (h : Htr) : Htr :=
  { h with zones := h.zones.map (Zone.switchOff limit), contactor := false, idle := none, window := false }

/-- The conversion cycle starts, no zone converted yet (R70). -/
def Htr.startCycle (now : Nat) (h : Htr) : Htr := { h with cycleStart := some now, converted := ⟨0, 0, 0, 0⟩ }

/-- The conversion cycle stops, and every conversion in progress is abandoned (R70). -/
def Htr.stopCycle (h : Htr) : Htr := { h with cycleStart := none, converted := ⟨0, 0, 0, 0⟩ }

/-- The cycle of 1000 ms that runs now, counted from 1; none while the cycle is stopped (R70). -/
def Htr.cycleNumber (now : Nat) (h : Htr) : Option Nat := h.cycleStart.map (fun c => (now - c) / Config.cycleMicros + 1)

/-- The zone's conversion of the cycle that runs now is still to come: each zone is converted once in a cycle (R70, log 25). -/
def Htr.converts (now : Nat) (z : ZoneId) (h : Htr) : Bool :=
  match h.cycleNumber now with
  | some n => decide (h.converted.get z < n)
  | none => false

/-- The zone's conversion of this cycle has completed (R70). -/
def Htr.noteConversion (now : Nat) (z : ZoneId) (h : Htr) : Htr :=
  { h with converted := h.converted.set z ((h.cycleNumber now).getD 0) }

/-- The doses set to 0 at a session open (R77). -/
def Htr.resetDoses (h : Htr) : Htr := { h with zones := h.zones.map (fun z => { z with heatTime := 0 }) }

/-! ## Demand -/

/-- The temperature a zone gives to T_min (R58). -/
def Zone.gives (z : Zone) : Option Int := if z.state = .out then none else z.temp

/-- The smaller of two temperatures either of which may be absent. -/
def minTemp : Option Int → Option Int → Option Int
  | none, b => b
  | a, none => a
  | some a, some b => some (min a b)

/-- T_min (R58). -/
def tMinOf (zones : Quad Zone) : Option Int := (zones.list.map Zone.gives).foldr minTemp none

/-- The band index k (R59). -/
def bandOf : Option Int → Nat
  | none => 0
  | some d => min 15 ((d + 400) / 50).toNat

/-- The charger demand d_c (R60). -/
def chargerDemandOf (cfg : Settings) (target : Nat) (met : Bool) (k : Nat) : Nat :=
  if target = 0 ∨ met then 0 else cfg.irating * cfg.derate.getD k 0 / 1000

/-- Delivered energy in Wh (R55), taken whole: three counters at their tops sum beyond the range 0 to 4294967 that R53 gives
the figure, and the model does not cap it (DESIGN CHOICE, log 36). -/
def deliveredOf : Option OpenRecord → Nat
  | none => 0
  | some r => (r.counters.lowCharging + r.counters.normCharging + r.counters.peakCharging) / 1000

/-- Target met (R55). -/
def targetMetOf (target delivered : Nat) : Bool := decide (0 < target ∧ target ≤ delivered)

/-- I_req: the remaining energy by the departure time at bus voltage `v`, rounded up (R56). -/
def requiredCurrent (remaining v t : Nat) : Nat := (remaining * 360000 + v * t - 1) / (v * t)

/-- The weight (R56, R57). -/
def weightOf (irating target delivered : Nat) (met : Bool) (departure clock v : Nat) : Nat :=
  if target = 0 ∨ met then 1
  else if departure ≤ clock then 15
  else min 15 (1 + 14 * requiredCurrent (target - delivered) v (departure - clock) / irating)

/-- The voltage the weight uses: the latest sample's when there is one above 0, else the nominal one (R56). -/
def weightVoltage (cfg : Settings) (latest : Option MeterSample) : Nat :=
  match latest with
  | some m => if 0 < m.voltage then m.voltage else cfg.nominalV
  | none => cfg.nominalV

/-- Delivered and target met re-evaluated (R55). -/
def Dmu.reread (rec : Option OpenRecord) (d : Dmu) : Dmu :=
  { d with delivered := deliveredOf rec, targetMet := targetMetOf d.target (deliveredOf rec) }

/-- T_min, band, charger demand, heater demand and own demand recomputed (R58 to R62). -/
def Dmu.refresh (cfg : Settings) (zones : Quad Zone) (d : Dmu) : Dmu :=
  let t := tMinOf zones
  let k := bandOf t
  let dc := chargerDemandOf cfg d.target d.targetMet k
  let dh := ratedSum Zone.asks zones cfg.ratings
  { d with tMin := t, band := k, chargerDemand := dc, heaterDemand := dh, ownDemand := min cfg.ist (dc + dh) }

/-- The weight recomputed (R56). -/
def Dmu.reweigh (cfg : Settings) (latest : Option MeterSample) (clock : Nat) (d : Dmu) : Dmu :=
  { d with weight := weightOf cfg.irating d.target d.delivered d.targetMet d.departure clock (weightVoltage cfg latest) }

/-- The split order (R63). -/
def splitOrderOf (tPermit : Int) : Option Int → SplitOrder
  | none => .heaterFirst
  | some d => if d < tPermit then .heaterFirst else .chargerFirst

/-- The split of the draw limit (R64). -/
def Dmu.split (tPermit : Int) (limit : Nat) (d : Dmu) : Dmu :=
  let o := splitOrderOf tPermit d.tMin
  match o with
  | .heaterFirst =>
      let h := min d.heaterDemand limit
      { d with order := o, heaterAllow := h, chargerAllow := min d.chargerDemand (limit - h) }
  | .chargerFirst =>
      let c := min d.chargerDemand limit
      { d with order := o, chargerAllow := c, heaterAllow := min d.heaterDemand (limit - c) }

end Sys2Proof.Machine
end

