-- ==== Sys2Proof/Machine/Meter.lean ====
section
/-! DEFINITION. The Energy Meter's and the Session Store's own state changes (chapters 8 and 9): energy, intervals, bands, presence, records, snapshot, export and check value. -/

namespace Sys2Proof.Machine

/-! ## Energy of one sample (R119, R121) -/

/-- Heater and charging units of a sample (R119). -/
def energyUnits (m : MeterSample) : Nat × Nat :=
  let ut := m.voltage * m.corrected.toNat
  let uh := min (m.voltage * m.heater.toNat) ut
  (uh, ut - uh)

/-- One sample completed in SESSION added to the interval: a slot sample credits the held units and marks the interval
estimated; any other credits its own and becomes the held one (R118 step 1, R119, R121). -/
def Mtr.accumulate (slot : Bool) (m : MeterSample) (r : Mtr) : Mtr :=
  let i := r.interval
  if slot then
    { r with interval := { i with heatAcc := i.heatAcc + r.heldHeat, chargeAcc := i.chargeAcc + r.heldCharge,
                                  count := i.count + 1, estimated := true } }
  else
    let e := energyUnits m
    { r with interval := { i with heatAcc := i.heatAcc + e.1, chargeAcc := i.chargeAcc + e.2, count := i.count + 1,
                                  reverse := i.reverse || decide (m.corrected < 0) },
             heldHeat := e.1, heldCharge := e.2 }

/-! ## Bands (R129) -/

/-- The depot load P, in per-mille (R129). -/
def depotLoad (reserved limit available : Nat) : Nat := (reserved + limit) * 1000 / available

/-- The band of an interval (R129). -/
def bandFor (low peak reserved limit available : Nat) : Band :=
  if available = 0 then .peak
  else
    let p := depotLoad reserved limit available
    if p < low then .low else if peak ≤ p then .peak else .normal

/-- The next interval begins (R126 step 5). -/
def Interval.next (b : Band) (i : Interval) : Interval :=
  { i with count := 0, estimated := false, reverse := false, number := min (i.number + 1) Config.countTop, band := b }

/-- The first interval of a session (R125). -/
def Interval.first (b : Band) : Interval := { Interval.none with number := 1, band := b }

/-- The remainders an interval end leaves (R126 step 1). -/
def Interval.remainders (i : Interval) : Interval :=
  { i with heatAcc := i.heatAcc % Config.unitsPerMilliwattHour, chargeAcc := i.chargeAcc % Config.unitsPerMilliwattHour }

/-! ## Crediting an interval (R126 steps 1 to 3, R132) -/

/-- The counter of a band and purpose. -/
def Counters.heating (c : Counters) : Band → Nat
  | .low => c.lowHeating | .normal => c.normHeating | .peak => c.peakHeating

def Counters.charging (c : Counters) : Band → Nat
  | .low => c.lowCharging | .normal => c.normCharging | .peak => c.peakCharging

/-- Energy added to the two counters of a band. -/
def Counters.add (b : Band) (heat charge : Nat) (c : Counters) : Counters :=
  match b with
  | .low => { c with lowHeating := c.lowHeating + heat, lowCharging := c.lowCharging + charge }
  | .normal => { c with normHeating := c.normHeating + heat, normCharging := c.normCharging + charge }
  | .peak => { c with peakHeating := c.peakHeating + heat, peakCharging := c.peakCharging + charge }

/-- The sum of the six counters. -/
def Counters.total (c : Counters) : Nat :=
  c.lowCharging + c.lowHeating + c.normCharging + c.normHeating + c.peakCharging + c.peakHeating

/-- A credit reduced to what brings the counter to its top (R132). -/
def reducedCredit (counter credit : Nat) : Nat := min credit (Config.counterTop - counter)

/-- The whole mWh an interval credits: heating, charging, as reduced for the open record (R126, R132). -/
def creditOf (i : Interval) (r : OpenRecord) : Nat × Nat :=
  (reducedCredit (r.counters.heating i.band) (i.heatAcc / Config.unitsPerMilliwattHour),
   reducedCredit (r.counters.charging i.band) (i.chargeAcc / Config.unitsPerMilliwattHour))

/-- The credit was reduced (R132). -/
def creditReduced (i : Interval) (r : OpenRecord) : Bool :=
  decide (creditOf i r ≠ (i.heatAcc / Config.unitsPerMilliwattHour, i.chargeAcc / Config.unitsPerMilliwattHour))

/-- A count that stops at 65535, raised by one when `b` (R132). -/
def countUp (b : Bool) (n : Nat) : Nat := if b then min (n + 1) Config.countTop else n

/-- The open record with the interval credited (R126 step 2, R132). -/
def OpenRecord.credit (i : Interval) (r : OpenRecord) : OpenRecord :=
  { r with counters := r.counters.add i.band (creditOf i r).1 (creditOf i r).2,
           intervalCount := countUp true r.intervalCount,
           estimatedCount := countUp (i.estimated || creditReduced i r) r.estimatedCount,
           reverseCount := countUp i.reverse r.reverseCount }

/-- The rise of the lifetime counter that goes with a credit (R128). -/
def creditTotal (i : Interval) : Option OpenRecord → Nat
  | none => 0
  | some r => (creditOf i r).1 + (creditOf i r).2

/-- The snapshot of an open record (R136): the peak as the Share Unit holds it, the clock, the lifetime counter. -/
def snapshotOf (peak clock lifetime : Nat) (r : OpenRecord) : Snapshot :=
  { record := { r with peak := peak }, time := clock, lifetime := lifetime }

/-! ## Presence (R124) -/

/-- A sample judged against the bus-present threshold (R124). -/
def Mtr.judgePresence (threshold v : Nat) (r : Mtr) : Mtr :=
  match r.presence with
  | .absent =>
      if v < threshold then { r with run := 0 }
      else if 4 ≤ r.run + 1 then { r with presence := .present, run := 0 } else { r with run := r.run + 1 }
  | .present =>
      if v < threshold then
        if 4 ≤ r.run + 1 then { r with presence := .absent, run := 0 } else { r with run := r.run + 1 }
      else { r with run := 0 }

/-- The sample reports the bus present (R124). -/
def Mtr.reportsPresent (threshold v : Nat) (r : Mtr) : Bool :=
  decide (r.presence = .absent ∧ threshold ≤ v ∧ 4 ≤ r.run + 1)

/-- The sample reports the bus lost (R124). -/
def Mtr.reportsLost (threshold v : Nat) (r : Mtr) : Bool :=
  decide (r.presence = .present ∧ v < threshold ∧ 4 ≤ r.run + 1)

/-- On every entry to READY the bus must be seen again (R124). -/
def Mtr.enterReady (r : Mtr) : Mtr := { r with presence := .absent, run := 0 }

/-! ## The calibration slot (R120 to R123) -/

/-- The slot reading is accepted as the offset (R123). -/
def slotAccepted (reading : Int) : Bool := decide (-50 ≤ reading ∧ reading ≤ 50)

/-- The slot judged: the offset kept or replaced, the state IDLE (R123). -/
def Mtr.judgeSlot (reading : Int) (r : Mtr) : Mtr :=
  { r with offset := if slotAccepted reading then reading else r.offset, cal := .idle }

/-- The next sample period begins; a PENDING slot shorts the input for it (R117, R122). -/
def Mtr.nextPeriod (now : Nat) (r : Mtr) : Mtr :=
  { r with periodEnd := some (now + Config.sampleMicros), cal := if r.cal = .pending then .shorted else r.cal,
           overtaken := none }

/-- The period in hand has run its length at this very moment, or before it (R117). -/
def Mtr.periodOver (now : Nat) (r : Mtr) : Bool :=
  match r.periodEnd with
  | some m => decide (m ≤ now)
  | none => false

/-- The meter at a session open: first interval, slot of the session open, held units 0, the period in hand abandoned (R121,
R125); a period that had just run its length is remembered for R134. -/
def Mtr.openSession (now : Nat) (b : Band) (r : Mtr) : Mtr :=
  { r with interval := Interval.first b, cal := .shorted, heldHeat := 0, heldCharge := 0,
           periodEnd := some (now + Config.sampleMicros), overtaken := if r.periodOver now then some now else none }

/-- The meter after either reset; offset and lifetime are retained (R117, R120, R124, R125, R128). The held units are 0, as at
power-on: R119 to R121 give them a value at session open only (DESIGN CHOICE, log 35). -/
def Mtr.afterReset (r : Mtr) : Mtr := { Mtr.reset with offset := r.offset, lifetime := r.lifetime }

/-! ## The export of a record (R181) and its check value (R143) -/

/-- The 61 bytes before the check value, from the fields an export carries (R181). -/
def exportBytes (r : OpenRecord) (closeTime closing reason fault : Nat) (unrecorded : Bool) : List Byte :=
  beBytes 4 r.number ++ beBytes 1 r.station ++ beBytes 1 r.depot ++ beBytes 4 r.openTime ++ beBytes 4 closeTime
    ++ beBytes 6 r.opening ++ beBytes 6 closing
    ++ beBytes 4 r.counters.lowCharging ++ beBytes 4 r.counters.lowHeating
    ++ beBytes 4 r.counters.normCharging ++ beBytes 4 r.counters.normHeating
    ++ beBytes 4 r.counters.peakCharging ++ beBytes 4 r.counters.peakHeating
    ++ beBytes 2 r.intervalCount ++ beBytes 2 r.estimatedCount ++ beBytes 2 r.reverseCount
    ++ beBytes 2 r.peak ++ beBytes 1 reason ++ beBytes 1 fault ++ beBytes 1 unrecorded.toNat

/-- The fault code byte of an export; 0 when absent (R181). -/
def faultByte : Option FaultCode → Nat
  | none => 0
  | some c => c.number

/-- The 63 bytes of a closed record, with its stored check value (R142, R181). -/
def ClosedRecord.bytes (c : ClosedRecord) : List Byte :=
  exportBytes c.record c.closeTime c.closing c.reason.number (faultByte c.faultCode) c.unrecorded ++ beBytes 2 c.check.toNat

/-- The 61 bytes of the open record, as its snapshot gives it (R142). -/
def Snapshot.body (p : Snapshot) : List Byte := exportBytes p.record p.time p.lifetime 0 0 false

/-- The 63 bytes of the open record, with a check value computed at the read (R142, R143). -/
def Snapshot.bytes (p : Snapshot) : List Byte := p.body ++ beBytes 2 (crc16 p.body).toNat

/-- A record closed, with its check value (R138, R139, R143). -/
def closeRecord (r : OpenRecord) (closeTime closing : Nat) (reason : CloseReason) (fault : Option FaultCode)
    (unrecorded : Bool) : ClosedRecord :=
  { record := r, closeTime := closeTime, closing := closing, reason := reason, faultCode := fault, unrecorded := unrecorded,
    check := crc16 (exportBytes r closeTime closing reason.number (faultByte fault) unrecorded) }

/-! ## The Session Store's own changes -/

/-- A snapshot found at power-on is closed with reason POWER_LOSS, the unrecorded mark set (R139). -/
def Ses.closeSnapshot (lifetime : Nat) (r : Ses) : Ses :=
  match r.snapshot with
  | none => r
  | some p => { r with log := r.log ++ [closeRecord p.record p.time lifetime .powerLoss none true], snapshot := none }

/-- The log room, session number and lifetime checks of OPEN SESSION (R134). -/
def Ses.hasRoom (lifetime : Nat) (r : Ses) : Bool :=
  decide (r.log.length + 1 ≤ Config.logCapacity ∧ r.nextNumber < Config.numberNeverIssued ∧
    lifetime ≤ Config.lifetimeOpenBound)

/-- The open record of a new session (R135). -/
def newRecord (number station depot clock lifetime : Nat) : OpenRecord :=
  { number := number, station := station, depot := depot, openTime := clock, opening := lifetime,
    counters := ⟨0, 0, 0, 0, 0, 0⟩, intervalCount := 0, estimatedCount := 0, reverseCount := 0, peak := 0 }

/-- The session opened: open record, first snapshot and raised next number in one retained write (R135). -/
def Ses.openSession (station depot clock lifetime : Nat) (r : Ses) : Ses :=
  let rec0 := newRecord r.nextNumber station depot clock lifetime
  { r with openRecord := some rec0, snapshot := some { record := rec0, time := clock, lifetime := lifetime },
           nextNumber := r.nextNumber + 1 }

/-- The open record closed and appended, the snapshot cleared (R138). -/
def Ses.close (clock lifetime peak : Nat) (reason : CloseReason) (fault : Option FaultCode) (r : Ses) : Ses :=
  match r.openRecord with
  | none => r
  | some o =>
      { r with openRecord := none, snapshot := none,
               log := r.log ++ [closeRecord { o with peak := peak } clock lifetime reason fault false] }

/-- What ACK SESSION finds (R141). -/
def Ses.ackResult (number : Nat) (r : Ses) : Result :=
  match r.log with
  | [] => .noRecord
  | c :: cs =>
      if c.record.number = number then .done
      else if cs.any (fun x => decide (x.record.number = number)) then .order else .noRecord

/-- ACK SESSION removes the oldest record when it is named (R141). -/
def Ses.ack (number : Nat) (r : Ses) : Ses :=
  if r.ackResult number = .done then { r with log := r.log.drop 1 } else r

end Sys2Proof.Machine
end

