-- ==== Sys2Proof/Machine/Ops.lean ====
section
/-! DEFINITION. The shared operations over the whole state: time, clock, faults, grant and split, session close, the departure from SESSION (R161), halting (R163), entries to the states, and the tail every event ends with. -/

namespace Sys2Proof.Machine

/-! ## Time and clock -/

/-- The station clock in seconds (R158): 0 while unset, and stopping at its top. -/
def clock (s : State) : Nat := if s.stc.clockSet then min (s.stc.clockMicros / 1000000) Config.clockTop else 0

/-- A peer entry's silence after `d` more microseconds; it counts up to 6 x T_a (R1, R9, R10). -/
def PeerEntry.age (ta d : Nat) (e : PeerEntry) : PeerEntry := { e with silence := min (e.silence + d) (6 * ta * 1000) }

/-- A zone's heating time after `d` more microseconds: it counts while the zone is HEATING, up to the dose limit (R77). -/
def Zone.warm (limit d : Nat) (z : Zone) : Zone :=
  if z.heats then { z with heatTime := min (z.heatTime + d) (limit * 1000000) } else z

/-- The station clock's count after `d` more microseconds (R158). -/
def Stc.advance (d : Nat) (c : Stc) : Stc := { c with clockMicros := if c.clockSet then c.clockMicros + d else c.clockMicros }

/-- `d` microseconds pass: silences, heating times and the clock count on. -/
def passTime (d : Nat) (s : State) : State :=
  { s with
    now := s.now + d
    ptb := { s.ptb with entries := s.ptb.entries.map (PeerEntry.age s.cfg.ta d) }
    htr := { s.htr with zones := s.htr.zones.map (Zone.warm s.cfg.doseLimit d) }
    stc := s.stc.advance d }

/-- Time passes up to the moment `t`, or not at all when `t` has come already (log 2). -/
def elapse (t : Nat) (s : State) : State := if t ≤ s.now then s else passTime (t - s.now) s

/-- A timer's moment has come. -/
def due (now : Nat) (m : Option Nat) : Bool :=
  match m with
  | some x => decide (x ≤ now)
  | none => false

/-- The station is in SESSION. -/
def inSession (s : State) : Bool := decide (s.stc.op = .session)

/-! ## Queueing frames (R147) -/

/-- An owner asks the DLI to queue a frame (R147). -/
def queueFrame (k : FrameKind) (c : TxContent) (s : State) : State :=
  { s with dli := s.dli.queueFrame s.stc.op k c }

/-- The Insulation Unit withdraws its EPOCH (R147). -/
def withdrawEpoch (s : State) : State := { s with dli := s.dli.withdrawEpoch s.now }

/-! ## Faults (R164, R165) -/

/-- The class of a fault: stop (true) or continue (R164). -/
def isStop (p : Policies) : FaultCode → Bool
  | .insLocal => true
  | .insBus => p.insBus
  | .insDouble => true
  | .insUnsettled => p.insUnsettled
  | .insWarn => false
  | .overdraw => p.overdraw
  | .converter => true
  | .codeConflict => true
  | .limitMismatch => false
  | .tableFull => false
  | .heaterZone => false
  | .heaterAllOut => p.heaterAllOut
  | .meterCal => p.meterCal

/-- The history with an entry appended; a full ring overwrites its oldest (R165). -/
def Flt.append (e : FaultEntry) (f : Flt) : Flt :=
  { history := (if f.history.length < Config.historyCapacity then f.history else f.history.drop 1) ++ [e],
    firstOut := match f.firstOut with
      | some x => some x
      | none => some e }

/-- The record of a raise: history, first-out, FAULT posted (R165 steps 1 to 4). -/
def recordFault (c : FaultCode) (d : FaultDetail) (s : State) : State :=
  post .fault { s with flt := s.flt.append { time := clock s, code := c, detail := d, state := s.stc.op } }

/-! ## The peer table (R14 to R17) -/

/-- The lowest code among the entries whose feeder limit heard is `f` (R15); entries stand in ascending order of code. -/
def leastFeederCode (f : Nat) (es : List PeerEntry) : Nat :=
  match es.find? (fun e => decide (e.share.feederLimit = f)) with
  | some e => e.code
  | none => 0

/-- F recomputed after a change of the table; the mismatch onset follows it (R14, R15). -/
def Ptb.refreshFeeder (own : Nat) (p : Ptb) : Ptb :=
  let f := effectiveFeeder own p.entries
  { p with feeder := f, mismatch := decide (f < own) }

/-- The recomputation finds F below the own limit while no onset is in progress (R15). -/
def Ptb.startsMismatch (own : Nat) (p : Ptb) : Bool := decide (effectiveFeeder own p.entries < own) && !p.mismatch

/-- A change of the table: F recomputed and LIMIT_MISMATCH decided (R14 to R16). -/
def refreshFeeder (s : State) : State :=
  let own := s.cfg.feederLimit
  let s1 := { s with ptb := s.ptb.refreshFeeder own }
  if s.ptb.startsMismatch own then
    recordFault .limitMismatch (.number (leastFeederCode s1.ptb.feeder s1.ptb.entries)) s1
  else s1

/-- The table emptied: no entry, timer stopped, F the own limit, no onset (R15, R17). -/
def emptyTable (s : State) : State :=
  { s with ptb := { entries := [], unlisted := none, feeder := s.cfg.feederLimit, mismatch := false } }

/-- The claimant marks of the entries follow the claimant set (R4, R105). -/
def syncMarks (s : State) : State :=
  { s with ptb := { s.ptb with
      entries := s.ptb.entries.map (fun e => { e with claimant := isMember e.code s.epi.claimants }) } }

/-! ## Demand, grant, split (R31, R65) -/

/-- The Demand Unit's figures recomputed from the zones, the target and the settings (R58 to R62). -/
def refreshDemand (s : State) : State := { s with dmu := s.dmu.refresh s.cfg s.htr.zones }

/-- Delivered energy and target met re-read from the open record (R55). -/
def rereadDelivered (s : State) : State := { s with dmu := s.dmu.reread s.ses.openRecord }

/-- The weight recomputed (R56). -/
def reweigh (s : State) : State := { s with dmu := s.dmu.reweigh s.cfg s.mtr.latest (clock s) }

/-- The grant record recomputed (R19, R30). -/
def recomputeGrant (s : State) : State := { s with shu := { s.shu with record := computeGrant s.grantInputs } }

/-- The grant in the record applied to L and I, an ANNOUNCE queued as R37 gives. -/
def applyGrant (s : State) : State :=
  let s1 := { s with shu := s.shu.applyGrant }
  if s.shu.grantMoves then queueFrame .announce .none s1 else s1

/-- A recomputation of the grant, and its application (R30, R31, R37). -/
def regrant (s : State) : State := applyGrant (recomputeGrant s)

/-- The test of hold completion (R40). -/
def holdTest (s : State) : State :=
  if holdComplete s.now s.cfg.ta s.ptb.entries s.shu then
    queueFrame .announce .none { s with shu := s.shu.complete }
  else s

/-- The split made and handed on: allowances, switch-off for allowance, setpoint (R64, R65, R76, R46). The switch-on test it
brings stands at the event's end (`finish`, R75). -/
def resplit (s : State) : State :=
  let d := s.dmu.split s.cfg.tPermit s.shu.limit
  { s with dmu := d, htr := s.htr.obey d.heaterAllow s.cfg, shu := s.shu.lowerSetpoint d.chargerAllow }

/-- After a change of the table: one grant, the hold test, one split (R16, R31, R40, R65). -/
def settleTable (s : State) : State := resplit (holdTest (regrant s))

/-- After a change of demand figures: the grant when own demand or weight differs from `before`, then the split (R54, R65, R72). -/
def settleDemand (before : Dmu) (s : State) : State :=
  resplit (if s.dmu.ownDemand = before.ownDemand ∧ s.dmu.weight = before.weight then s else regrant s)

/-! ## The vehicle link's answers (R171, R172) -/

/-- A termination record placed in the result slot (R171, R172). -/
def answer (r : TermRecord) (s : State) : State := { s with vlk := { s.vlk with slot := some r } }

/-- Request code of CALIBRATE METER (R182). -/
abbrev codeCalibrate : Byte := 0x0E#8

/-- The request in progress ends with a termination record (R174); nothing when none is in progress. R174 holds the slot empty then,
but R171 gives a SOFT RESET of wrong length, shifted in under BUSY, a RANGE record: where one still stands in the slot, the record of
CALIBRATE METER takes its place (DESIGN CHOICE, log 42). -/
def endCalibrate (res : Result) (data : List Byte) (s : State) : State :=
  match s.vlk.inProgress with
  | none => s
  | some tag =>
      answer { tag := tag, code := codeCalibrate, result := res, clampMask := 0, data := data }
        { s with vlk := { s.vlk with inProgress := none } }

/-- A calibration slot abandoned: the short removed, IDLE, CALIBRATE METER ABANDONED (R122). The record carries no data: R123 and
R172 give the data of DONE and of refusals only (DESIGN CHOICE, log 37). -/
def abandonSlot (s : State) : State :=
  if s.mtr.cal = .idle then s
  else endCalibrate .abandoned [] { s with mtr := { s.mtr with cal := .idle } }

/-! ## Crediting and closing a session (R126 to R128, R138) -/

/-- The interval credited to the open record and, by the same mWh, to the lifetime counter (R126, R128). -/
def creditInterval (s : State) : State :=
  { s with
    ses := { s.ses with openRecord := s.ses.openRecord.map (OpenRecord.credit s.mtr.interval) }
    mtr := { s.mtr with lifetime := s.mtr.lifetime + creditTotal s.mtr.interval s.ses.openRecord,
                        interval := s.mtr.interval.remainders } }

/-- The snapshot written with the lifetime counter (R128, R136). -/
def writeSnapshot (s : State) : State :=
  { s with ses := { s.ses with
      openRecord := s.ses.openRecord.map (fun r => { r with peak := s.shu.peak })
      snapshot := s.ses.openRecord.map (snapshotOf s.shu.peak (clock s) s.mtr.lifetime) } }

/-- The interval in progress ended as a partial interval, if it holds a sample (R127). -/
def partialInterval (s : State) : State := if s.mtr.interval.count = 0 then s else creditInterval s

/-- A session closed in its close event (R138), the slot abandoned (R122), delivered and target met re-evaluated (R55, R67). -/
def closeSession (reason : CloseReason) (fault : Option FaultCode) (s : State) : State :=
  let s1 := partialInterval s
  let s2 := post .sessionClosed
    { s1 with ses := s1.ses.close (clock s1) s1.mtr.lifetime s1.shu.peak reason fault,
              mtr := { s1.mtr with interval := Interval.none } }
  refreshDemand (rereadDelivered (abandonSlot s2))

/-! ## Changes of operating state (R157, R161 to R163) -/

/-- The operating state takes a new value; the listen window runs in LISTENING alone; STATE_CHANGED is posted (R157, R159). -/
def setOp (op : OpState) (s : State) : State :=
  post .stateChanged { s with stc := { s.stc with op := op, listenWindow := none } }

/-- The departure from SESSION, steps 1 to 5 of R161. The grant of 0 queues an ANNOUNCE only where it lowers L or I: that a CLOSE
SESSION with both at 0 already queues none on its return to LINKED is the model's reading of R44 (DEDUCED, log 39). -/
def depart (reason : CloseReason) (fault : Option FaultCode) (dest : OpState) (s : State) : State :=
  let s1 := closeSession reason fault s
  let s2 := withdrawEpoch { s1 with ins := s1.ins.leaveSession }
  let s3 := { s2 with htr := s2.htr.leaveSession s2.cfg.doseLimit }
  let s4 := resplit (regrant (setOp dest s3))
  { s4 with shu := s4.shu.leaveSession, stc := { s4.stc with contactor := false } }

/-- The new state is taken from LISTENING or LINKED, where no session is open: state, and the grant it brings (R30). -/
def moveTo (op : OpState) (s : State) : State := resplit (regrant (setOp op s))

/-- The episode on leaving the bus, the claimant marks with it (R113). -/
def leaveBus (s : State) : State := syncMarks { s with epi := s.epi.leaveBus }

/-- The entry effects of HALTED (R163). -/
def enterHalted (s : State) : State :=
  let s1 := queueFrame .leave .none s
  leaveBus { s1 with dli := s1.dli.enterHalted s1.now }

/-- A stop-class fault moves the station from LISTENING, LINKED or SESSION to HALTED (R163). -/
def halt (c : FaultCode) (s : State) : State :=
  match s.stc.op with
  | .session => enterHalted (depart .fault (some c) .halted s)
  | .linked => enterHalted (moveTo .halted (abandonSlot s))
  | .listening => enterHalted (moveTo .halted s)
  | _ => s

/-- A block raises a fault (R165): the record, and for a stop-class fault the halt. -/
def raise (c : FaultCode) (d : FaultDetail) (s : State) : State :=
  let s1 := recordFault c d s
  if isStop s.cfg.policies c then halt c s1 else s1

/-- The entry effects of READY (R162): queue cut back, table emptied, presence ABSENT, conversions stopped, episode left; one
grant from the emptied table (R31). -/
def enterReady (s : State) : State :=
  let s1 := { s with dli := s.dli.enterReady s.now, mtr := s.mtr.enterReady, htr := s.htr.stopCycle }
  resplit (regrant (emptyTable (leaveBus s1)))

/-- A report that the bus is lost (R162): LISTENING, LINKED or SESSION to READY, LEAVE queued. -/
def busLost (s : State) : State :=
  match s.stc.op with
  | .session => enterReady (queueFrame .leave .none (depart .busLost none .ready s))
  | .linked => enterReady (queueFrame .leave .none (moveTo .ready s))
  | .listening => enterReady (queueFrame .leave .none (moveTo .ready s))
  | _ => s

/-- CONVERTER raised with the setpoint as detail (R47). -/
def raiseConverter (s : State) : State := raise .converter (.number s.shu.setpoint) s

/-- A report that the bus is present (R159): READY to LISTENING. -/
def busPresent (s : State) : State :=
  match s.stc.op with
  | .ready =>
      let s1 := setOp .listening s
      let s2 := { s1 with
        stc := { s1.stc with listenWindow := some (s1.now + 2 * s1.cfg.ta * 1000) }
        dli := s1.dli.enterListening s1.now
        htr := s1.htr.startCycle s1.now }
      let s3 := resplit (regrant s2)
      if s3.shu.faultInput then raiseConverter s3 else s3
  | _ => s

/-- The table emptied in HALTED once neither CLAIM nor LEAVE is queued, a change of the table (R16, R17). -/
def emptyIfDone (s : State) : State :=
  if s.stc.op = .halted ∧ s.dli.queue.claim = none ∧ s.dli.queue.leave = none then settleTable (emptyTable s) else s

/-! ## The event's tail (R75, R82) -/

/-- What an event did that brings a switch-on test (R75): the heater allowance changed, the window flag was cleared, or a zone
changed its state. -/
def testDue (before after : State) : Bool :=
  decide (before.dmu.heaterAllow ≠ after.dmu.heaterAllow) || (before.htr.window && !after.htr.window)
    || decide (before.htr.zones.map Zone.state ≠ after.htr.zones.map Zone.state)

/-- The end of every event: the switch-on test where one is due (`force`: the event itself brings it), after the event's other
work (R75), then the idle timer's start (R82). -/
def finish (force : Bool) (before after : State) : State :=
  let h := if force || testDue before after then
      after.htr.switchOn after.now (inSession after) after.dmu.heaterAllow after.cfg
    else after.htr
  { after with htr := h.startIdle after.now (inSession after) before.htr.zones.anyHeating }

/-- An event at the moment `t`: time passes up to it, the event does its work, and its tail follows. -/
def event (t : Nat) (f : State → State) (s : State) : State :=
  let s0 := elapse t s
  finish false s0 (f s0)

/-- An event that brings a switch-on test itself where `tests` holds of the state it meets. -/
def eventTested (t : Nat) (tests : State → Bool) (f : State → State) (s : State) : State :=
  let s0 := elapse t s
  finish (tests s0) s0 (f s0)

end Sys2Proof.Machine
end

