-- ==== Sys2Proof/Machine/Episode.lean ====
section
/-! DEFINITION. The Insulation Unit's work over the whole state: evaluation of findings, onsets, claims and departures (chapter 7); the end of an own epoch, frames taken from the line, sample points and half ends (chapter 6). -/

namespace Sys2Proof.Machine

/-! ## Windows, timer, trace -/

/-- The Insulation Unit reports that the sample window has opened (R73, R89). -/
def openWindow (s : State) : State := { s with htr := { s.htr with window := true } }

/-- The Insulation Unit reports that the sample window has closed (R73, R89). -/
def closeWindow (s : State) : State := { s with htr := { s.htr with window := false } }

/-- The epoch timer started for its full duration (R86). -/
def startEpochTimer (s : State) : State := { s with ins := s.ins.startTimer s.now s.cfg }

/-- A finding entered in the trace; `r` is none for UNSETTLED (R115). -/
def enterTrace (epoch measurer : Nat) (r : Option Nat) (v : Nat) (s : State) : State :=
  { s with trc := s.trc.enter (TraceEntry.mk epoch measurer r v (s.ins.branchFor epoch measurer) (clock s)) }

/-- The trace frozen at an onset; TRACE_FROZEN is posted unless it is frozen already (R115). -/
def freezeTrace (s : State) : State :=
  if s.trc.frozen then s else post .traceFrozen { s with trc := { s.trc with frozen := true } }

/-! ## Episode states (R106 to R112) -/

/-- The episode state takes a value; the claim window runs in CLAIM_WAIT alone (R111). -/
def setEpisode (e : EpisodeState) (s : State) : State := { s with epi := { s.epi with state := e, window := none } }

/-- The claimant set replaced, the claimant marks with it (R105). -/
def setClaimants (cs : List Claimant) (s : State) : State := syncMarks { s with epi := { s.epi with claimants := cs } }

/-- DOUBLE_FAULT entered, then INS_DOUBLE raised with the detail given (R112). -/
def enterDouble (detail : Nat) (s : State) : State := raise .insDouble (.number detail) (setEpisode .doubleFault s)

/-- INS_LOCAL raised with the own R_b (R112). -/
def raiseLocal (rb : Nat) (s : State) : State := raise .insLocal (.number rb) s

/-- The station claims (R107): CLAIM queued, own code joined, the new state by the set and the state of the test, INS_LOCAL,
and INS_DOUBLE after it where the new state is DOUBLE_FAULT. -/
def claimOwn (epoch rb : Nat) (s : State) : State :=
  let cs := joinClaimant { code := s.cfg.stationCode, epoch := epoch, rb := rb, departed := false } s.epi.claimants
  let s1 := setClaimants cs (queueFrame .claim (.claim epoch rb) s)
  if s.epi.state = .claimWait ∧ cs.length = 1 then raiseLocal rb (setEpisode .localFault s1)
  else raise .insDouble (.number rb) (raiseLocal rb (setEpisode .doubleFault s1))

/-- The own claim test, and the claim where it succeeds; otherwise `other` follows (R107). -/
def claimOr (epoch measurer alarmK : Nat) (other : State → State) (s : State) : State :=
  match ownClaim s.stc.op s.ins epoch measurer alarmK with
  | some rb => claimOwn epoch rb s
  | none => other s

/-- The last step of an onset: two or more members of this very epoch give DOUBLE_FAULT (R107 step 6). -/
def onsetDouble (r : Nat) (s : State) : State := if 2 ≤ s.epi.claimants.length then enterDouble r s else s

/-- An alarm onset (R107). -/
def onset (epoch measurer r v : Nat) (s : State) : State :=
  let warnK := thresholdK s.cfg.warn v
  let alarmK := thresholdK s.cfg.alarm v
  let s1 := { s with epi := { s.epi with
      onset := some { epoch := epoch, measurer := measurer, r := r, voltage := v, warnK := warnK, alarmK := alarmK } } }
  let s2 := setClaimants (pruneClaimants epoch s1.epi.claimants) s1
  let s3 := { s2 with epi := { s2.epi with state := .claimWait, window := some (s2.now + 3 * s2.cfg.ta * 1000) } }
  claimOr epoch measurer alarmK (onsetDouble r) (freezeTrace s3)

/-- The departure test, made in ATTRIBUTED (R110). -/
def departureTest (r : Nat) (s : State) : State :=
  match s.epi.claimants with
  | [c] => if c.departed then enterDouble r s else s
  | _ => s

/-- The episode ended: the claimant set emptied, the onset figures kept (R106). -/
def endEpisode (e : EpisodeState) (s : State) : State := setEpisode e (setClaimants [] s)

/-- INS_WARN raised with the finding's R (R106). -/
def raiseWarn (r : Nat) (s : State) : State := raise .insWarn (.number r) s

/-- The evaluation of an adopted finding, by the table of R106. -/
def evaluate (epoch measurer r v : Nat) (s : State) : State :=
  let alarmK := thresholdK s.cfg.alarm v
  match s.epi.state, findingBand s.cfg r v with
  | .normal, .top => s
  | .normal, .middle => raiseWarn r (setEpisode .warning s)
  | .normal, .alarm => onset epoch measurer r v s
  | .warning, .top => setEpisode .normal s
  | .warning, .middle => s
  | .warning, .alarm => onset epoch measurer r v s
  | .claimWait, .alarm => claimOr epoch measurer alarmK id s
  | .claimWait, _ => s
  | .attributed, .top => endEpisode .normal s
  | .attributed, .middle => endEpisode .warning s
  | .attributed, .alarm => claimOr epoch measurer alarmK (departureTest r) s
  | .busFault, .alarm => claimOr epoch measurer alarmK id s
  | .busFault, _ => s
  | .localFault, _ => s
  | .doubleFault, _ => s

/-- An ACCEPTED finding adopted: bus record, trace entry, evaluation (R100, R115, R106). -/
def adopt (epoch measurer r v : Nat) (s : State) : State :=
  let s1 := { s with ins := { s.ins with
      busRecord := some { epoch := epoch, measurer := measurer, r := r, voltage := v, time := clock s } } }
  evaluate epoch measurer r v (enterTrace epoch measurer (some r) v s1)

/-- A PTB notice that a claimant has departed (R8, R10, R110); nothing for a code that is no member. -/
def claimantDeparted (code : Nat) (s : State) : State :=
  { s with epi := { s.epi with claimants := markDeparted true code s.epi.claimants } }

/-- The claim window's expiry: the members are counted (R111). -/
def claimWindowEnds (s : State) : State :=
  match s.epi.claimants with
  | [] =>
      raise .insBus (.number (match s.epi.onset with
        | some o => (o.r : Int)
        | none => 0)) (setEpisode .busFault s)
  | [_] => setEpisode .attributed s
  | _ => { s with epi := { s.epi with window := none } }

/-! ## The end of an own epoch (R94) -/

/-- The bus voltage of the latest meter sample, in dV. -/
def latestVoltage (s : State) : Nat := match s.mtr.latest with
  | some m => m.voltage
  | none => 0

/-- The epoch state becomes IDLE and the epoch timer is started (R94 step 6, R88, R97, R99). -/
def idleAndTimer (s : State) : State := startEpochTimer { s with ins := s.ins.goIdle }

/-- An own epoch ends, ACCEPTED with `r` or UNSETTLED (R94). -/
def endOwnEpoch (r : Option Nat) (s : State) : State :=
  let n := s.ins.epochNumber
  let v := latestVoltage s
  let s1 := { s with ins := s.ins.setBranchRecord }
  let s2 := closeWindow (if s1.ins.resend then withdrawEpoch s1 else s1)
  let s3 := { s2 with ins := { s2.ins with source := .off, resend := false } }
  let s4 := match r with
    | some x => adopt n s.cfg.stationCode x v (queueFrame .finding (.finding n 0 x v) s3)
    | none =>
        raise .insUnsettled (.number s3.ins.unsettledDetail)
          (enterTrace n s.cfg.stationCode none v (queueFrame .finding (.finding n 1 0 v) s3))
  if s4.stc.op = .session then idleAndTimer s4 else s4

/-! ## Frames the Insulation Unit takes (R98 to R100, R109) -/

/-- A peer's epoch is observed from now; a window still open is reported closed (R95, R98). -/
def observeEpoch (code epoch half : Nat) (s : State) : State :=
  closeWindow { s with ins := s.ins.observe s.now s.cfg.ta code epoch half }

/-- A higher-code EPOCH heard while INJECTING (R99): the cycle is discarded and, unless it is queued already, the own EPOCH is
queued again. -/
def keepInjecting (s : State) : State :=
  let s1 := { s with ins := s.ins.discardCycle }
  if s.ins.resend then s1
  else queueFrame .epoch (.epoch s.ins.epochNumber s.ins.tHalf) { s1 with ins := { s1.ins with resend := true } }

/-- An EPOCH heard while OBSERVING (R98). -/
def epochWhileObserving (code epoch half : Nat) (s : State) : State :=
  if code < s.ins.injector then observeEpoch code epoch half s
  else if code = s.ins.injector then
    if epoch = s.ins.epochNumber then closeWindow { s with ins := s.ins.reobserve s.now s.cfg.ta }
    else observeEpoch code epoch half s
  else s

/-- An EPOCH taken in SESSION, by the epoch state (R88, R95, R98, R99). -/
def epochInSession (code epoch half : Nat) (s : State) : State :=
  match s.ins.epochState with
  | .idle => observeEpoch code epoch half s
  | .pending => observeEpoch code epoch half (withdrawEpoch s)
  | .injecting => if code < s.cfg.stationCode then observeEpoch code epoch half (withdrawEpoch s) else keepInjecting s
  | .observing => epochWhileObserving code epoch half s

/-- The last epoch number takes the number of a frame (R100). -/
def setLastEpoch (epoch : Nat) (s : State) : State := { s with ins := { s.ins with lastEpoch := epoch } }

/-- An EPOCH the PTB passes to the Insulation Unit (R100). -/
def takeEpoch (code epoch half : Nat) (s : State) : State :=
  if epochInRange half then
    let s1 := setLastEpoch epoch s
    if s1.stc.op = .session then epochInSession code epoch half (startEpochTimer s1) else s1
  else s

/-- The observed epoch ends: branch record, window, IDLE (R96, R97). -/
def endObserved (s : State) : State :=
  closeWindow { s with ins := s.ins.setBranchRecord.goIdle }

/-- A FINDING the PTB passes to the Insulation Unit (R96, R100). -/
def takeFinding (code epoch result r v : Nat) (s : State) : State :=
  if findingInRange result r v then
    let s1 := setLastEpoch epoch s
    let s2 := if s1.ins.endsObserved code epoch then endObserved s1 else s1
    let s3 := if result = 0 then adopt epoch code r v s2 else enterTrace epoch code none v s2
    if s3.stc.op = .session then startEpochTimer s3 else s3
  else s

/-- A new member's effect on the episode (R109). -/
def memberJoined (rb : Nat) (s : State) : State :=
  match s.epi.state with
  | .claimWait => if 2 ≤ s.epi.claimants.length then enterDouble rb s else s
  | .attributed => enterDouble rb s
  | .busFault => enterDouble rb s
  | _ => s

/-- A CLAIM the PTB passes to the Insulation Unit (R109). -/
def takeClaim (code epoch rb : Nat) (s : State) : State :=
  if rb ≤ 50000 then
    let s1 := setClaimants
      (joinClaimant { code := code, epoch := epoch, rb := rb, departed := false } s.epi.claimants) s
    if isMember code s.epi.claimants then s1 else memberJoined rb s1
  else s

/-! ## Sample points, half ends, loss, and the own EPOCH's fate -/

/-- A sample of U and I_b as the Insulation Unit takes it (R84, R89, R179). -/
def passPoint (u ib : Int) (s : State) : State :=
  { s with ins := s.ins.passPoint (sensedU u) (sensedI s.trm.inUse ib) }

/-- The first or second sample point of a half (R89): the first one opens the window. -/
def samplePoint (u ib : Int) (s : State) : State :=
  if s.ins.pointDue s.now then
    passPoint u ib (if s.ins.points = 0 then openWindow s else s)
  else s

/-- The end of a cycle, at the moment `m` (R93, R94): the own epoch ends, or the next cycle follows. -/
def cycleEnd (m : Nat) (s : State) : State :=
  let s1 := { s with ins := s.ins.endCycle s.trm.inUse }
  match s.ins.busResult s.trm.inUse with
  | .accepted r => endOwnEpoch (some r) s1
  | .unsettled => endOwnEpoch none s1
  | .going => { s1 with ins := s1.ins.followCycle m }

/-- The end of a half (R89): end sample, window closed, the next half or the cycle's end. -/
def halfEnds (u ib : Int) (s : State) : State :=
  if s.ins.halfDue s.now then
    let m := s.ins.halfStart.getD s.now + s.ins.tHalf * 1000
    let s1 := closeWindow (passPoint u ib s)
    match s.ins.half with
    | .positive => { s1 with ins := s1.ins.startNegative m }
    | .negative => cycleEnd m s1
  else s

/-- The loss deadline of an observed epoch (R97). -/
def loseEpoch (s : State) : State := startEpochTimer (endObserved s)

/-- An own EPOCH is made up and queued (R87, R103). -/
def startOwnEpoch (s : State) : State :=
  let i := s.ins.makePending s.cfg.stationCode (sessionPeers s.ptb.entries)
  queueFrame .epoch (.epoch i.epochNumber i.tHalf) { s with ins := i }

/-- The timing origin moved after an overlap (R99); a sixth cycle cut short ends the epoch UNSETTLED (R93, R94). -/
def moveOrigin (s : State) : State :=
  let s1 := closeWindow { s with ins := { s.ins.restart s.now with resend := false } }
  if s.ins.cycleCount < 6 then s1 else endOwnEpoch none s1

/-- The own EPOCH has been sent (R88, R99). -/
def epochSent (s : State) : State :=
  match s.ins.epochState with
  | .pending => { s with ins := s.ins.inject s.now }
  | .injecting => if s.ins.resend then moveOrigin s else s
  | _ => s

/-- The own EPOCH has been dropped (R88, R99, R152). -/
def epochDropped (s : State) : State :=
  match s.ins.epochState with
  | .pending => idleAndTimer s
  | .injecting => if s.ins.resend then idleAndTimer (closeWindow s) else s
  | _ => s

end Sys2Proof.Machine
end

