-- ==== Sys2Proof/Machine/Report.lean ====
section
/-! DEFINITION. The data of the requests that read (R18, R116, R142, R166, R176, R179), encoded as R182 gives. -/

namespace Sys2Proof.Machine

/-- `n` fields that are absent (R182). -/
def wordsAbsent (n : Nat) : List Byte := (List.replicate n wordAbsent).flatten

/-- The meter accumulators and the lifetime counter take 8 bytes (R182). -/
def longWord (n : Nat) : List Byte := beBytes 8 n

/-- A collection: its count, then its members (R182). -/
def collection {α : Type} (f : α → List Byte) (xs : List α) : List Byte := word xs.length ++ xs.flatMap f

/-- Section 1 of READ STATUS: the pending marks (R175). -/
def Marks.report (m : Marks) : List Byte :=
  wordMark m.fault ++ wordMark m.sessionClosed ++ wordMark m.stateChanged ++ wordMark m.traceFrozen
    ++ wordMark m.frameDropped

/-- Section 2: operating state, bus contactor, listen window (R157). -/
def Stc.report (now : Nat) (c : Stc) : List Byte :=
  word c.op.position ++ wordContactor c.contactor ++ wordToCome now c.listenWindow

/-- Section 3: the grant record (R19). -/
def GrantRecord.report (g : GrantRecord) : List Byte :=
  word g.available ++ word g.frozen ++ word g.pool ++ word g.own ++ wordInt g.balance ++ word g.grant
    ++ word g.zeroCause.position

/-- Section 4: the share state (R36). The converter enable, "on or off", reads as a mark, 1 for on (DEDUCED, log 20). -/
def Shu.report (now : Nat) (u : Shu) : List Byte :=
  word u.limit ++ word u.intent ++ word u.hold.position ++ wordMark u.raisePending ++ wordPast now u.holdStart
    ++ wordToCome now u.holdTimer ++ word u.setpoint ++ wordMark u.enable ++ word u.overCount ++ wordMark u.overWait
    ++ word u.exclusion ++ word u.peak

/-- Section 5: the demand state, without the derate table (R53). Target met, "yes or no", reads as a mark, 1 for yes (DEDUCED,
log 20). -/
def Dmu.report (cfg : Settings) (d : Dmu) : List Byte :=
  word d.target ++ word d.departure ++ word d.delivered ++ wordMark d.targetMet ++ word d.weight ++ wordIntOpt d.tMin
    ++ word d.band ++ word d.chargerDemand ++ word d.heaterDemand ++ word d.ownDemand ++ word d.order.position
    ++ word d.chargerAllow ++ word d.heaterAllow ++ word cfg.irating ++ word cfg.ist ++ word cfg.nominalV
    ++ wordInt cfg.tPermit

/-- One zone record (R69). -/
def Zone.report (z : Zone) : List Byte :=
  word z.state.position ++ wordIntOpt z.temp ++ word z.dose ++ word (z.heatTime / 1000)
    ++ wordOpt (z.outCause.map OutCause.position)

/-- Section 6: the zone records, contactor, timers and window flag (R69). -/
def Htr.report (now : Nat) (h : Htr) : List Byte :=
  h.zones.list.flatMap Zone.report ++ wordContactor h.contactor ++ wordToCome now h.stagger ++ wordToCome now h.idle
    ++ wordMark h.window

/-- The branch track: an estimate held or accepted reads as its number (log 7). -/
def BranchTrack.report : BranchTrack → List Byte
  | .absent => wordAbsent
  | .held e => word e
  | .accepted r => word r
  | .unsettled => wordResult none

/-- The bus record (R85). -/
def busRecordReport : Option BusRecord → List Byte
  | some r => word r.epoch ++ word r.measurer ++ word r.r ++ word r.voltage ++ word r.time
  | none => wordsAbsent 5

/-- The branch record (R85). -/
def branchRecordReport : Option BranchRecord → List Byte
  | some r => word r.epoch ++ word r.injector ++ wordResult r.result
  | none => wordsAbsent 3

/-- The cycle record of the last completed cycle: six samples of U, then six of I_b (R176). -/
def cycleReport : Option (List Int × List Int) → List Byte
  | some r => r.1.flatMap wordInt ++ r.2.flatMap wordInt
  | none => wordsAbsent 12

/-- Section 7: the items of R85 and the cycle record. -/
def Ins.report (now : Nat) (i : Ins) : List Byte :=
  word i.epochState.position ++ word i.epochNumber ++ word i.injector ++ word i.tHalf ++ wordPast now i.origin
    ++ word i.cycleCount ++ wordOpt i.busTrack ++ i.branchTrack.report ++ wordMark i.resend
    ++ wordToCome now i.lossDeadline ++ wordToCome now i.epochTimer ++ word i.lastEpoch ++ busRecordReport i.busRecord
    ++ branchRecordReport i.branchRecord ++ cycleReport i.cycleRecord

/-- A member of the claimant set (R105). -/
def Claimant.report (c : Claimant) : List Byte :=
  word c.code ++ word c.epoch ++ word c.rb ++ wordMark c.departed

/-- The onset figures (R105). -/
def onsetReport : Option Onset → List Byte
  | some o => word o.epoch ++ word o.measurer ++ word o.r ++ word o.voltage ++ word o.warnK ++ word o.alarmK
  | none => wordsAbsent 6

/-- Section 8: the episode record (R105). -/
def Epi.report (now : Nat) (e : Epi) : List Byte :=
  word e.state.position ++ collection Claimant.report e.claimants ++ wordToCome now e.window ++ onsetReport e.onset

/-- The latest sample and the sample-taken mark (R117). Both currents read after their trim gains: R117 lists I_t as raw, scales
both "before use" and does not say which READ STATUS returns (DESIGN CHOICE, log 47). -/
def latestReport : Option MeterSample → List Byte
  | some m => word m.voltage ++ wordInt m.total ++ wordInt m.heater ++ wordInt m.corrected ++ wordMark true
  | none => wordsAbsent 4 ++ wordMark false

/-- Section 9: the meter figures (R117, R120, R124, R125) and the lifetime counter. -/
def Mtr.report (r : Mtr) : List Byte :=
  latestReport r.latest ++ wordInt r.offset ++ word r.cal.position ++ word r.presence.position ++ word r.run
    ++ longWord r.interval.heatAcc ++ longWord r.interval.chargeAcc ++ word r.interval.count
    ++ word r.interval.band.position ++ wordMark r.interval.estimated ++ wordMark r.interval.reverse
    ++ word r.interval.number ++ longWord r.lifetime

/-- A queued kind with its failed-attempt count; ANNOUNCE holds none (R146, R156), and its count field is there and reads absent
(DESIGN CHOICE, log 45). -/
def queuedReport (q : TxQueue) (k : FrameKind) : List Byte :=
  word k.position ++ wordOpt (if k = .announce then none else (q.get k).map TxEntry.failed)

/-- The kinds held unsent in HALTED (R148, R156). -/
def heldKinds (op : OpState) (q : TxQueue) : List FrameKind :=
  if op = .halted then q.kinds.filter (fun k => !sends .halted k) else []

/-- Section 10: the depot line figures (R156). -/
def Dli.report (op : OpState) (d : Dli) : List Byte :=
  collection (queuedReport d.queue) d.queue.kinds ++ collection (fun k => word k.position) (heldKinds op d.queue)
    ++ word (d.txState op).position ++ wordOpt (d.dropKind.map FrameKind.position) ++ word d.dropCount

/-- The data of READ STATUS (R176). -/
def statusData (s : State) : List Byte :=
  s.vlk.marks.report ++ s.stc.report s.now ++ s.shu.record.report ++ s.shu.report s.now ++ s.dmu.report s.cfg
    ++ s.htr.report s.now ++ s.ins.report s.now ++ s.epi.report s.now ++ s.mtr.report ++ s.dli.report s.stc.op

/-- The data of READ TRIM (R179). -/
def trimData (t : Trm) : List Byte :=
  word t.inUse.ui ++ word t.inUse.rc ++ word t.inUse.branchGain ++ word t.inUse.totalGain ++ word t.inUse.heaterGain
    ++ wordMark t.valid

/-- A fault entry (R165). -/
def FaultEntry.report (e : FaultEntry) : List Byte :=
  word e.time ++ word e.code.number ++ e.detail.word ++ word e.state.position

/-- The first-out fault or its absence (R166). -/
def firstOutReport : Option FaultEntry → List Byte
  | some e => e.report
  | none => wordsAbsent 4

/-- The five selectable policies (R164, R166). -/
def Policies.report (p : Policies) : List Byte :=
  wordPolicy p.insBus ++ wordPolicy p.insUnsettled ++ wordPolicy p.overdraw ++ wordPolicy p.heaterAllOut
    ++ wordPolicy p.meterCal

/-- The data of READ FAULTS (R166). -/
def faultsData (s : State) : List Byte :=
  firstOutReport s.flt.firstOut ++ collection FaultEntry.report s.flt.history ++ s.cfg.policies.report

/-- A peer entry (R18). -/
def PeerEntry.report (e : PeerEntry) : List Byte :=
  word e.code ++ word e.share.feederLimit ++ word e.share.demand ++ word e.share.weight ++ word e.share.limit
    ++ word e.share.intent ++ word (flagBits e.share.flags) ++ word e.freshness.position ++ word (e.silence / 1000)
    ++ wordMark e.heard ++ wordMark e.claimant

/-- The data of READ PEERS (R18): the count, F, whether the timer runs, the entries. -/
def peersData (p : Ptb) : List Byte :=
  word p.entries.length ++ word p.feeder ++ wordMark p.unlisted.isSome ++ p.entries.flatMap PeerEntry.report

/-- The own branch result of a trace entry (R115). -/
def branchReport : Option (Option Nat) → List Byte
  | none => wordAbsent
  | some r => wordResult r

/-- A trace entry (R115). -/
def TraceEntry.report (e : TraceEntry) : List Byte :=
  word e.epoch ++ word e.measurer ++ wordResult e.r ++ word e.voltage ++ branchReport e.branch ++ word e.time

/-- The data of READ TRACE (R116): the count, the frozen mark, the missed count, the entries. -/
def traceData (t : Trc) : List Byte :=
  word t.entries.length ++ wordMark t.frozen ++ word t.missed ++ t.entries.flatMap TraceEntry.report

/-- The selector that names the open session (R182). -/
def selectorOpen : Nat := 255

/-- What a READ SESSION selector gives (R142): its result and the record's bytes. -/
def readSelected (r : Ses) (selector : Nat) : Result × List Byte :=
  if selector = selectorOpen then
    match r.openRecord, r.snapshot with
    | some _, some p => (.done, p.bytes)
    | _, _ => (.noRecord, [])
  else if selector ≤ 15 then
    match r.log[selector]? with
    | some c => (.done, c.bytes)
    | none => (.noRecord, [])
  else (.range, [])

/-- The data of READ SESSION (R142): the record, then the number of records in the log; a RANGE carries none (R172). -/
def sessionData (r : Ses) (selector : Nat) : List Byte :=
  if (readSelected r selector).1 = .range then [] else (readSelected r selector).2 ++ word r.log.length

end Sys2Proof.Machine
end

