-- ==== Sys2Proof/Machine/Link.lean ====
section
/-! DEFINITION. The vehicle link (R170 to R174): transactions, the handling of a request at SELN's rising edge, the work of each request's owning block, and the two resets (R168, R169). -/

namespace Sys2Proof.Machine

/-! ## Transactions (R170) -/

/-- What a transaction shifts out (R170): the status byte, then the record's bytes, or 00h when there is none; what follows a
whole record is free (log 10). -/
def shiftOut (clocked : Nat) (status : Byte) (slot : Option TermRecord) : List Byte :=
  let after := match slot with
    | none => List.replicate (clocked - 1) 0#8
    | some r => r.bytes ++ (List.range (clocked - 1 - r.bytes.length)).map Config.afterRecord
  (status :: after).take clocked

/-- The slot after a transaction: emptied once the last byte of its record has been shifted out (R170). -/
def slotAfter (clocked : Nat) (slot : Option TermRecord) : Option TermRecord :=
  match slot with
  | none => none
  | some r => if 1 + r.bytes.length ≤ clocked then none else some r

/-- SELN falls and `clocked` whole bytes are clocked (R170). -/
def openTransaction (clocked : Nat) (s : State) : State :=
  let status := statusByte s
  { s with vlk := { s.vlk with
      txn := some { status := status, clocked := clocked }
      shiftedOut := shiftOut clocked status s.vlk.slot
      slot := slotAfter clocked s.vlk.slot } }

/-- SELN rises: no transaction is in hand any more. -/
def closeTransaction (s : State) : State := { s with vlk := { s.vlk with txn := none } }

/-! ## Requests (R171 to R174) -/

/-- Request codes (R182). -/
abbrev codeReadStatus : Byte := 0x01#8
abbrev codeReadTrim : Byte := 0x02#8
abbrev codeSoftReset : Byte := 0x03#8
abbrev codeConfigure : Byte := 0x04#8
abbrev codeReadFaults : Byte := 0x05#8
abbrev codeReadSession : Byte := 0x06#8
abbrev codeAckSession : Byte := 0x07#8
abbrev codeReadTrace : Byte := 0x08#8
abbrev codeSetTarget : Byte := 0x09#8
abbrev codeReadPeers : Byte := 0x0A#8
abbrev codeOpenSession : Byte := 0x0B#8
abbrev codeCloseSession : Byte := 0x0C#8
abbrev codeMeasureNow : Byte := 0x0D#8
abbrev codeClearFault : Byte := 0x0F#8

/-- Whether a request is served in an operating state (R173), by its code. -/
def served (code : Byte) (op : OpState) : Bool :=
  if code = codeConfigure then decide (op = .start)
  else if code = codeSetTarget then decide (op ≠ .start)
  else if code = codeReadPeers then op.takesFrames
  else if code = codeOpenSession then decide (op = .linked)
  else if code = codeCloseSession then decide (op = .session)
  else if code = codeMeasureNow then decide (op = .session)
  else if code = codeCalibrate then decide (op = .linked ∨ op = .session)
  else if code = codeClearFault then decide (op ≠ .start)
  else true

/-- A request's parameter length, by its code (R182). -/
def paramLength (code : Byte) : Nat :=
  if code = codeConfigure then 91
  else if code = codeReadSession then 1
  else if code = codeAckSession then 4
  else if code = codeSetTarget then 8
  else 0

/-- A termination record with no clamp (R172). -/
def reply (code tag : Byte) (res : Result) (data : List Byte) (s : State) : State :=
  answer { tag := tag, code := code, result := res, clampMask := 0, data := data } s

/-- The request is discarded at the rising edge: incomplete, BUSY shown, or the slot still full (R171). -/
def discarded (code : Byte) (x : Txn) (params : List Byte) (slot : Option TermRecord) : Bool :=
  decide (x.clocked < 3 + params.length) || (busyBit x.status && decide (code ≠ codeSoftReset)) || slot.isSome

/-- A complete request not discarded, refused or handed to its owning block (R171, R173). -/
def handOver (code tag : Byte) (params : List Byte) (serve : State → State) (s : State) : State :=
  if served code s.stc.op then
    if params.length = paramLength code then serve s else reply code tag .range [] s
  else reply code tag .notNow [] s

/-- SELN rises with one of the requests shifted in (R171); nothing when no transaction is in hand. -/
def takeRequest (code tag : Byte) (params : List Byte) (serve : State → State) (s : State) : State :=
  match s.vlk.txn with
  | none => s
  | some x =>
      if discarded code x params s.vlk.slot then closeTransaction s
      else handOver code tag params serve (closeTransaction s)

/-! ## The requests that read -/

/-- READ STATUS (R175, R176). -/
def serveReadStatus (tag : Byte) (s : State) : State :=
  reply codeReadStatus tag .done (statusData s) { s with vlk := { s.vlk with marks := Marks.none } }

/-- READ TRIM (R179). -/
def serveReadTrim (tag : Byte) (s : State) : State := reply codeReadTrim tag .done (trimData s.trm) s

/-- READ FAULTS (R166). -/
def serveReadFaults (tag : Byte) (s : State) : State := reply codeReadFaults tag .done (faultsData s) s

/-- READ SESSION (R142). -/
def serveReadSession (tag : Byte) (params : List Byte) (s : State) : State :=
  let sel := fieldAt params 0 1
  reply codeReadSession tag (readSelected s.ses sel).1 (sessionData s.ses sel) s

/-- READ TRACE (R116). -/
def serveReadTrace (tag : Byte) (s : State) : State :=
  reply codeReadTrace tag .done (traceData s.trc) { s with trc := s.trc.afterRead }

/-- READ PEERS (R18). -/
def serveReadPeers (tag : Byte) (s : State) : State := reply codeReadPeers tag .done (peersData s.ptb) s

/-! ## The other requests -/

/-- ACK SESSION (R141); the data is the number of records left (R172). -/
def serveAckSession (tag : Byte) (params : List Byte) (s : State) : State :=
  let n := fieldAt params 0 4
  let s1 := { s with ses := s.ses.ack n }
  reply codeAckSession tag (s.ses.ackResult n) (word s1.ses.log.length) s1

/-- The energy needed is clamped (R54). -/
def targetTop : Nat := 200000

/-- The target stored and the demand figures that follow it (R54). -/
def storeTarget (energy departure : Nat) (s : State) : State :=
  reweigh (refreshDemand (rereadDelivered
    { s with dmu := { s.dmu with target := min energy targetTop, departure := departure } }))

/-- SET TARGET (R54). -/
def serveSetTarget (tag : Byte) (params : List Byte) (s : State) : State :=
  let energy := fieldAt params 0 4
  let s1 := settleDemand s.dmu (storeTarget energy (fieldAt params 4 4) s)
  answer { tag := tag, code := codeSetTarget, result := .done, clampMask := if targetTop < energy then 1 else 0,
           data := word s1.dmu.weight ++ word s1.dmu.ownDemand } s1

/-- The effects of an accepted CONFIGURE (R158, R14, R117, R153) and of the entry to READY it brings: the table is empty (R17), the
presence ABSENT (R124), no conversion runs (R70). -/
def configured (c : Configured) (s : State) : State :=
  let s1 := { s with
    cfg := c.settings
    stc := { s.stc with clockSet := true, clockMicros := c.clockBase * 1000000 }
    dli := { s.dli with sequence := sequenceSeed c.settings.stationCode }
    htr := s.htr.stopCycle
    mtr := { s.mtr.enterReady with periodEnd := some (s.now + Config.sampleMicros) } }
  resplit (regrant (setOp .ready (refreshDemand (emptyTable s1))))

/-- CONFIGURE (R158, R177, R178). -/
def serveConfigure (tag : Byte) (params : List Byte) (s : State) : State :=
  if configRefused params then reply codeConfigure tag .range [] s
  else
    answer { tag := tag, code := codeConfigure, result := .done, clampMask := (configOf params).clampMask, data := [] }
      (configured (configOf params) s)

/-- The band of an interval that starts now (R129). -/
def currentBand (s : State) : Band :=
  bandFor s.cfg.lowBand s.cfg.peakBand (reservedSum s.ptb.entries) s.shu.limit s.shu.record.available

/-- The opening of a session (R135, R160): record and snapshot, SESSION, contactor, meter, doses, epoch timer, Share Unit,
then the Demand Unit's figures, one grant and one split (R31, R67). -/
def openedSession (s : State) : State :=
  let s1 := { s with ses := s.ses.openSession s.cfg.stationCode s.cfg.depotCode (clock s) s.mtr.lifetime }
  let s2 := setOp .session s1
  let s3 := { s2 with
    stc := { s2.stc with contactor := true }
    mtr := s2.mtr.openSession s2.now (currentBand s2)
    htr := s2.htr.resetDoses
    ins := s2.ins.enterSession s2.now (clock s2) s2.cfg
    shu := s2.shu.enterSession }
  resplit (regrant (reweigh (refreshDemand (rereadDelivered s3))))

/-- OPEN SESSION (R134). -/
def serveOpenSession (tag : Byte) (s : State) : State :=
  if !s.ses.hasRoom s.mtr.lifetime then reply codeOpenSession tag .logFull [] s
  else if !s.epi.permits then reply codeOpenSession tag .insulation [] s
  else reply codeOpenSession tag .done (word s.ses.nextNumber) (openedSession s)

/-- The number of the open session. -/
def openNumber (r : Ses) : Nat := match r.openRecord with
  | some o => o.number
  | none => 0

/-- CLOSE SESSION (R160). -/
def serveCloseSession (tag : Byte) (s : State) : State :=
  reply codeCloseSession tag .done (word (openNumber s.ses)) (depart .request none .linked s)

/-- MEASURE NOW (R103). An epoch timer that is running runs on: R103 makes PENDING "exactly as an expiry of the epoch timer would", which
leaves the timer stopped, and R86 names no such stop (DESIGN CHOICE, log 44). -/
def serveMeasureNow (tag : Byte) (s : State) : State :=
  if s.ins.epochState = .idle then
    let s1 := startOwnEpoch s
    reply codeMeasureNow tag .done (word s1.ins.epochNumber ++ word s1.ins.tHalf) s1
  else reply codeMeasureNow tag .notNow [] s

/-- CALIBRATE METER (R122): the request stays in progress; a slot asked for or running is joined. -/
def serveCalibrate (tag : Byte) (s : State) : State :=
  { s with
    mtr := { s.mtr with cal := if s.mtr.cal = .idle then .pending else s.mtr.cal }
    vlk := { s.vlk with inProgress := some tag } }

/-- What an accepted CLEAR FAULT clears in any state (R113, R167). -/
def clearedFaults (s : State) : State :=
  syncMarks { s with flt := { s.flt with firstOut := none }, epi := s.epi.clear }

/-- CLEAR FAULT (R167). -/
def serveClearFault (tag : Byte) (s : State) : State :=
  if s.stc.op = .halted then
    if s.shu.faultInput then reply codeClearFault tag .stillActive [] s
    else reply codeClearFault tag .done [] (enterReady (setOp .ready (clearedFaults s)))
  else reply codeClearFault tag .done [] (clearedFaults s)

/-! ## The two resets (R168, R169) -/

/-- The marks a reset leaves: STATE_CHANGED, and SESSION_CLOSED when it closed a session (R175). -/
def Marks.afterReset (closed : Bool) : Marks := { Marks.none with stateChanged := true, sessionClosed := closed }

/-- Every block at its reset values; the retained items, the trace, the trim in use, the time and the pins' input levels stay. -/
def resetBlocks (s : State) : State :=
  { s with
    cfg := Settings.reset
    ptb := Ptb.reset
    shu := { Shu.reset with faultInput := s.shu.faultInput }
    dmu := Dmu.reset
    htr := Htr.reset
    ins := Ins.reset
    epi := Epi.reset
    mtr := s.mtr.afterReset
    stc := Stc.reset
    dli := s.dli.afterReset s.now }

/-- SOFT RESET (R169). -/
def serveSoftReset (s : State) : State :=
  let closed := decide (s.stc.op = .session)
  let s1 := resetBlocks (if closed then depart .reset none .start s else s)
  { s1 with vlk := { s1.vlk with inProgress := none, slot := none, marks := Marks.afterReset closed } }

/-- A trim constant is within its range (R179). -/
def TrimConstants.inRange (c : TrimConstants) : Bool :=
  decide (35000 ≤ c.ui ∧ c.ui ≤ 45000 ∧ 180000 ≤ c.rc ∧ c.rc ≤ 220000 ∧ 9000 ≤ c.branchGain ∧ c.branchGain ≤ 11000 ∧
    9000 ≤ c.totalGain ∧ c.totalGain ≤ 11000 ∧ 9000 ≤ c.heaterGain ∧ c.heaterGain ≤ 11000)

/-- The stored CRC agrees with the stored constants (R179, log 6). -/
def Trm.crcAgrees (m : Trm) : Bool :=
  decide (crc16 (Config.trimImage m.stored.ui m.stored.rc m.stored.branchGain m.stored.totalGain m.stored.heaterGain)
    = m.storedCrc)

/-- The Trim Store read at power-on (R179). -/
def Trm.read (m : Trm) : Trm :=
  if m.crcAgrees && m.stored.inRange then { m with inUse := m.stored, valid := true }
  else { m with inUse := TrimConstants.nominal, valid := false }

/-- A power-on reset (R168, R139). One that comes between SELN's falling and its rising edge drops the transaction in hand, so the
request at that rising edge does nothing: the manual says nothing of it (R171; DESIGN CHOICE, log 40). -/
def powerOn (s : State) : State :=
  let s1 := resetBlocks s
  { s1 with
    trc := Trc.reset
    ses := { (s.ses.closeSnapshot s.mtr.lifetime) with openRecord := none }
    trm := s.trm.read
    vlk := { Vlk.reset with marks := Marks.afterReset s.ses.snapshot.isSome } }

/-! ## Raw transfers: NOP and codes that are no request (R171) -/

/-- The bytes received: those shifted in up to the bytes clocked, 00h where the command lists none (log 12). -/
def received (clocked : Nat) (bytes : List Byte) : List Byte :=
  (bytes ++ List.replicate (clocked - bytes.length) 0#8).take clocked

/-- The work of the request with a code, where the code is one of the sixteen (R182). -/
def serviceOf (code tag : Byte) (params : List Byte) : Option (State → State) :=
  if code = codeReadStatus then some (serveReadStatus tag)
  else if code = codeReadTrim then some (serveReadTrim tag)
  else if code = codeSoftReset then some serveSoftReset
  else if code = codeConfigure then some (serveConfigure tag params)
  else if code = codeReadFaults then some (serveReadFaults tag)
  else if code = codeReadSession then some (serveReadSession tag params)
  else if code = codeAckSession then some (serveAckSession tag params)
  else if code = codeReadTrace then some (serveReadTrace tag)
  else if code = codeSetTarget then some (serveSetTarget tag params)
  else if code = codeReadPeers then some (serveReadPeers tag)
  else if code = codeOpenSession then some (serveOpenSession tag)
  else if code = codeCloseSession then some (serveCloseSession tag)
  else if code = codeMeasureNow then some (serveMeasureNow tag)
  else if code = codeCalibrate then some (serveCalibrate tag)
  else if code = codeClearFault then some (serveClearFault tag)
  else none

/-- The bytes received handled by the cases of R171. -/
def dealWith (x : Txn) (bs : List Byte) (s : State) : State :=
  let code := bs.getD 0 0
  let tag := bs.getD 1 0
  let len := (bs.getD 2 0).toNat
  let params := (bs.drop 3).take len
  if bs.length < 3 + len then s
  else if code = 0#8 then s
  else if busyBit x.status && decide (code ≠ codeSoftReset) then s
  else if s.vlk.slot.isSome then s
  else match serviceOf code tag params with
    | none => reply code tag .range [] s
    | some serve => handOver code tag params serve s

/-- SELN rises with these bytes shifted in (R171). -/
def takeRaw (bytes : List Byte) (s : State) : State :=
  match s.vlk.txn with
  | none => s
  | some x => dealWith x (received x.clocked bytes) (closeTransaction s)

end Sys2Proof.Machine
end

