-- ==== Sys2Proof/Machine/PeerEvents.lean ====
section
/-! DEFINITION. Frames from the depot line: the receive framer's hand-over (R154, R155), the own-code check (R11), the peer table's handling of each kind (R3 to R8, R12), and the entries' ageing thresholds (R9, R10, R13). -/

namespace Sys2Proof.Machine

/-- The own-code check failed: CODE_CONFLICT with the code carried (R11). -/
def raiseConflict (code : Nat) (s : State) : State := raise .codeConflict (.number code) s

/-- A change of the table, with no work of the Insulation Unit between F and the grant (R16). -/
def tableChanged (s : State) : State := settleTable (refreshFeeder s)

/-- The entries replaced. -/
def setEntries (es : List PeerEntry) (s : State) : State := { s with ptb := { s.ptb with entries := es } }

/-- The entry an ANNOUNCE creates (R4). -/
def newEntry (code : Nat) (f : ShareFields) (cs : List Claimant) : PeerEntry :=
  { code := code, share := f, freshness := .fresh, silence := 0, heard := true, claimant := isMember code cs }

/-- An entry created; a member's departed mark is cleared (R4, R110). -/
def createEntry (code : Nat) (f : ShareFields) (s : State) : State :=
  setEntries (insertEntry (newEntry code f s.epi.claimants) s.ptb.entries)
    { s with epi := { s.epi with claimants := markDeparted false code s.epi.claimants } }

/-- The unlisted-peer timer started, or started again, at 6 x T_a (R12). -/
def startUnlisted (s : State) : State :=
  { s with ptb := { s.ptb with unlisted := some (s.now + 6 * s.cfg.ta * 1000) } }

/-- An ANNOUNCE from a code with no entry while the table is full (R12). -/
def unlistedAnnounce (code : Nat) (s : State) : State :=
  if s.ptb.unlisted.isSome then startUnlisted s
  else tableChanged (raise .tableFull (.number code) (startUnlisted s))

/-- An ANNOUNCE handled (R3 to R5, R12). -/
def handleAnnounce (code : Nat) (f : ShareFields) (s : State) : State :=
  if shareInRange f then
    match findEntry code s.ptb.entries with
    | some _ => tableChanged (setEntries (updateEntry code (PeerEntry.announced f) s.ptb.entries) s)
    | none =>
        if s.ptb.entries.length < Config.peerCapacity then tableChanged (createEntry code f s)
        else unlistedAnnounce code s
  else s

/-- The code has an entry that is STALE: its refresh is a change of the table (R6). -/
def wasStale (code : Nat) (es : List PeerEntry) : Bool :=
  match findEntry code es with
  | some e => decide (e.freshness = .stale)
  | none => false

/-- An EPOCH, FINDING or CLAIM: the entry is refreshed, then the Insulation Unit takes the frame; a change of the table is
passed on around it, F first and one grant last (R6, R16, R31). -/
def handleAlive (code : Nat) (take : State → State) (s : State) : State :=
  let s1 := setEntries (updateEntry code PeerEntry.refreshed s.ptb.entries) s
  if wasStale code s.ptb.entries then settleTable (take (refreshFeeder s1)) else take s1

/-- A LEAVE handled (R8). -/
def handleLeave (code : Nat) (s : State) : State :=
  let s1 := claimantDeparted code (setEntries (removeEntry code s.ptb.entries) s)
  match findEntry code s.ptb.entries with
  | some _ => tableChanged s1
  | none => s1

/-- The Peer Table block's handling of a frame by kind, and the Insulation Unit's where the frame goes to it (R3 to R8). -/
def handleFrame (code : Nat) (p : Payload) (s : State) : State :=
  match p with
  | .announce f => handleAnnounce code f s
  | .epoch n half => handleAlive code (takeEpoch code n half) s
  | .finding n result r v => handleAlive code (takeFinding code n result r v) s
  | .claim n rb => handleAlive code (takeClaim code n rb) s
  | .leave => handleLeave code s

/-- The framer took the frame's start bit (R154): it begins after an idle line, in a state that takes frames, or before the
moment the framer stopped taking them. -/
def framerTook (s : State) (begun : Nat) : Bool :=
  decide (s.dli.framerFrom ≤ begun) &&
    (s.stc.op.takesFrames ||
      (decide (s.stc.op = .ready ∨ s.stc.op = .halted) &&
        (match s.dli.framerUntil with
          | some u => decide (begun < u)
          | none => false)))

/-- A frame of another station has ended, or the framer has given it up: the gap is complete, and the framer takes a start bit, from
the moments given (R149, R154). -/
def lineIdle (gap framer : Nat) (s : State) : State := { s with dli := s.dli.idleFrom gap framer }

/-- A station that is sending receives nothing: every frame on the line is then read back as its own attempt (R150). It counts as
sending until the command that ends the attempt is taken (log 22). -/
def unlessSending (f : State → State) (s : State) : State := if s.dli.attempt.isSome then s else f s

/-- A frame whose check value agrees has ended: the line's marks move (R149, R154), and it is handed on where the framer took it
(R154, R155, R11, R3). -/
def frameArrives (h : Header) (p : Payload) (s : State) : State :=
  let s1 := lineIdle (idleAfter s.now (arrivedFrame h p).lineBits) (s.now + Config.gapMicros) s
  if headerOk s.cfg.depotCode h.code h.depot && framerTook s h.begun then
    if h.code = s.cfg.stationCode then raiseConflict h.code s1
    else if s.stc.op.takesFrames then handleFrame h.code p s1
    else s1
  else s1

/-- An arrival, where the station is not sending (R150). -/
def arrive (h : Header) (p : Payload) (s : State) : State := unlessSending (frameArrives h p) s

/-- The line from a start bit on as the framer reads it (R154): a discard, or, where the bits are a whole sound frame, its
arrival (log 13). -/
def receiveBits (begun : Nat) (bits : List Bool) (s : State) : State :=
  match readFrame s.cfg.depotCode bits with
  | some f => arrive { begun := begun, code := f.code, depot := f.depot } f.payload s
  | none => unlessSending (lineIdle (idleAfter s.now bits) (framerAfter s.now bits)) s

/-! ## Ageing (R9, R10, R13) -/

/-- The entry becomes STALE (R9). -/
def PeerEntry.goStale (e : PeerEntry) : PeerEntry := { e with freshness := .stale }

/-- The silence of a FRESH entry has reached 3 x T_a (R9). -/
def staleDue (ta : Nat) : Option PeerEntry → Bool
  | some e => decide (e.freshness = .fresh ∧ 3 * ta * 1000 ≤ e.silence)
  | none => false

/-- An entry's silence has reached 6 x T_a (R10). -/
def removalDue (ta : Nat) : Option PeerEntry → Bool
  | some e => decide (6 * ta * 1000 ≤ e.silence)
  | none => false

/-- An entry goes STALE (R9). -/
def goStale (code : Nat) (s : State) : State :=
  if staleDue s.cfg.ta (findEntry code s.ptb.entries) then
    tableChanged (setEntries (updateEntry code PeerEntry.goStale s.ptb.entries) s)
  else s

/-- An entry is removed by silence; a claimant's departure is told (R10, R110). -/
def removeSilent (code : Nat) (s : State) : State :=
  if removalDue s.cfg.ta (findEntry code s.ptb.entries) then
    tableChanged (claimantDeparted code (setEntries (removeEntry code s.ptb.entries) s))
  else s

/-- The unlisted-peer timer expires (R13). -/
def unlistedEnds (s : State) : State :=
  if due s.now s.ptb.unlisted then tableChanged { s with ptb := { s.ptb with unlisted := none } } else s

end Sys2Proof.Machine
end

