-- ==== Sys2Proof/Machine/LineEvents.lean ====
section
/-! DEFINITION. The transmitter over the whole state: the start of an attempt (R149, R44), the frames sent (R151, R38), the failures and drops (R152, R153), and the timers of the line (R45, R159). -/

namespace Sys2Proof.Machine

/-- The share fields of the own ANNOUNCE as the figures stand (R44). -/
def ownFigures (s : State) : ShareFields :=
  { feederLimit := s.cfg.feederLimit, demand := s.dmu.ownDemand, weight := s.dmu.weight, limit := s.shu.limit,
    intent := s.shu.intent,
    flags := { session := inSession s, charging := decide (0 < s.shu.setpoint), heating := s.htr.zones.anyHeating } }

/-- The payload of a queued kind at an attempt: an ANNOUNCE is built afresh (R145, R149). -/
def payloadFor (k : FrameKind) (s : State) : Payload :=
  match k, s.dli.queue.get k with
  | .announce, _ => .announce (ownFigures s)
  | _, some e => e.content.payload
  | _, none => .leave

/-- The frame of an attempt, its header from the configured codes (R145). -/
def frameFor (k : FrameKind) (s : State) : Frame :=
  { code := s.cfg.stationCode, depot := s.cfg.depotCode, payload := payloadFor k s }

/-- The gap is complete: the line has been recessive for 12 bit times since the moment given, which any dominant bit of another
station moves, and since what the station itself has sent or read (R149, log 22). -/
def gapComplete (recessive : Nat) (s : State) : Bool :=
  decide (s.dli.gapFrom ≤ s.now ∧ recessive + Config.gapMicros ≤ s.now)

/-- The kind an attempt that may start now would send (R149). -/
def attemptKind (recessive : Nat) (s : State) : Option FrameKind :=
  if s.dli.attempt.isNone && s.dli.backoff.isNone && gapComplete recessive s then nextKind s.stc.op s.dli.queue
  else none

/-- An attempt starts where the transmitter is DEFERRING and the gap is complete (R149). -/
def attemptStarts (recessive : Nat) (s : State) : State :=
  match attemptKind recessive s with
  | some k => { s with dli := s.dli.startAttempt s.now k (frameFor k s) }
  | none => s

/-- The attempt of this kind whose last bit has ended (R150). -/
def finishedAttempt (k : FrameKind) (s : State) : Option Attempt :=
  match s.dli.attempt with
  | some a => if a.kind = k ∧ a.ends ≤ s.now then some a else none
  | none => none

/-- A frame has been sent: its entry leaves the queue, and its owner is told (R151). -/
def frameSent (k : FrameKind) (tell : Attempt → State → State) (s : State) : State :=
  match finishedAttempt k s with
  | some a => tell a { s with dli := s.dli.sent s.now a }
  | none => s

/-- The intent a frame carried. -/
def carriedIntent (f : Frame) : Nat := match f.payload with
  | .announce x => x.intent
  | _ => 0

/-- The heard-since-intent mark cleared (R7). -/
def PeerEntry.unheard (e : PeerEntry) : PeerEntry := { e with heard := false }

/-- An ANNOUNCE sent: a pending hold starts when the frame carried the raised intent (R38, R7). -/
def announceSent (a : Attempt) (s : State) : State :=
  if startsHold (carriedIntent a.frame) s.shu then
    setEntries (s.ptb.entries.map PeerEntry.unheard) { s with shu := s.shu.startHold s.now s.cfg.ta }
  else s

/-- A drop told to its owner (R152). -/
def dropTold (k : FrameKind) (s : State) : State :=
  match k with
  | .epoch => epochDropped s
  | .claim => emptyIfDone s
  | .leave => emptyIfDone s
  | .finding => s
  | .announce => s

/-- The attempt on the line fails (R152, R153): count, drop and its event, backoff. -/
def attemptFails (s : State) : State :=
  match s.dli.attempt with
  | none => s
  | some a =>
      let s1 := { s with dli := s.dli.failed s.now a }
      if dropsOn a s.dli then dropTold a.kind (post .frameDropped s1) else s1

/-- The backoff ends (R153). -/
def backoffEnds (s : State) : State :=
  if due s.now s.dli.backoff then { s with dli := { s.dli with backoff := none } } else s

/-- The hold timer expires and completion is tested (R40). -/
def holdTimerEnds (s : State) : State :=
  if due s.now s.shu.holdTimer then resplit (holdTest { s with shu := { s.shu with holdTimer := none } }) else s

/-- The next announce period starts at the moment given (R45). -/
def startAnnounce (start : Nat) (s : State) : State := { s with dli := s.dli.startAnnounce s.cfg.ta start }

/-- The announce timer expires: an ANNOUNCE is queued and the next period starts from the expiry (R45). -/
def announceTimerEnds (s : State) : State :=
  match s.dli.announce with
  | some m => if m ≤ s.now then startAnnounce m (queueFrame .announce .none s) else s
  | none => s

/-- The listen window expires: LINKED, the first ANNOUNCE, the announce timer (R159). -/
def listenWindowEnds (s : State) : State :=
  if s.stc.op = .listening ∧ due s.now s.stc.listenWindow = true then
    startAnnounce s.now (queueFrame .announce .none (moveTo .linked s))
  else s

end Sys2Proof.Machine
end

