-- ==== Sys2Proof/Machine/StationEvents.lean ====
section
/-! DEFINITION. The events of the heater, the insulation timers, the meter and the converter input over the whole state (R47, R71, R78, R82, R86, R97, R111, R118). -/

namespace Sys2Proof.Machine

/-! ## Heater -/

/-- A zone record replaced. -/
def setZone (z : ZoneId) (x : Zone) (s : State) : State := { s with htr := { s.htr with zones := s.htr.zones.set z x } }

/-- The conversion stores a reading or moves the zone (R72). -/
def conversionTells (c : Conversion) (z : Zone) : Bool :=
  match c with
  | .reading _ => true
  | _ => decide (z.state ≠ .out)

/-- Why a zone is OUT. -/
def causeOf (z : Zone) : OutCause := match z.outCause with
  | some c => c
  | none => .sensorOpen

/-- HEATER_ALL_OUT, when the move leaves all four zones OUT (R80). -/
def raiseAllOut (d : FaultDetail) (s : State) : State :=
  if s.htr.zones.list.all (fun z => decide (z.state = .out)) then raise .heaterAllOut d s else s

/-- The faults of a move to OUT (R79, R80). -/
def raiseOut (z : ZoneId) (s : State) : State :=
  let d := FaultDetail.zone z (causeOf (s.htr.zones.get z))
  raiseAllOut d (raise .heaterZone d s)

/-- A change of a zone handed on from step 2 of R72: demand, grant, split, then the faults of a move to OUT. -/
def zoneChanged (z : ZoneId) (old new : Zone) (s : State) : State :=
  let s1 := settleDemand s.dmu (refreshDemand (setZone z new s))
  if old.state ≠ .out ∧ new.state = .out then raiseOut z s1 else s1

/-- A conversion that stores a reading or moves its zone completes (R70, R72). -/
def conversionDue (z : ZoneId) (c : Conversion) (s : State) : Bool :=
  s.htr.converts s.now z && conversionTells (settledConversion c) (s.htr.zones.get z)

/-- A conversion completes, once for its zone in a cycle of 1000 ms (R70 to R72). -/
def conversion (z : ZoneId) (c : Conversion) (s : State) : State :=
  if s.htr.converts s.now z then
    let old := s.htr.zones.get z
    let s1 := { s with htr := s.htr.noteConversion s.now z }
    if conversionDue z c s then zoneChanged z old (old.convert s.cfg (settledConversion c)) s1 else s1
  else s

/-- A HEATING zone's heating time reaches the dose limit (R78). -/
def doseLimitReached (z : ZoneId) (s : State) : State :=
  let old := s.htr.zones.get z
  if old.heats && decide (s.cfg.doseLimit * 1000000 ≤ old.heatTime) then zoneChanged z old old.exhaust s else s

/-- The stagger timer expires (R75); the switch-on test stands at the event's end. -/
def staggerEnds (s : State) : State :=
  if due s.now s.htr.stagger then { s with htr := { s.htr with stagger := none } } else s

/-- The idle timer expires and the heater contactor opens (R82). -/
def idleEnds (s : State) : State :=
  if due s.now s.htr.idle then { s with htr := { s.htr with idle := none, contactor := false } } else s

/-! ## Insulation timers -/

/-- The epoch timer expires (R86). -/
def epochTimerEnds (s : State) : State :=
  if due s.now s.ins.epochTimer then
    let s1 := { s with ins := { s.ins with epochTimer := none } }
    if s1.stc.op = .session ∧ s1.ins.epochState = .idle then startOwnEpoch s1 else s1
  else s

/-- The loss deadline is reached in OBSERVING (R97). -/
def lossDeadlineEnds (s : State) : State :=
  if s.ins.epochState = .observing ∧ due s.now s.ins.lossDeadline = true then loseEpoch s else s

/-- The claim window expires in CLAIM_WAIT (R111). -/
def claimWindowExpires (s : State) : State :=
  if s.epi.state = .claimWait ∧ due s.now s.epi.window = true then claimWindowEnds s else s

/-! ## Meter samples (R118) -/

/-- OVERDRAW raised (R50); under the continue policy the wait follows. -/
def overdrawRaised (corrected : Int) (s : State) : State :=
  let s1 := raise .overdraw (.number corrected) s
  if isStop s.cfg.policies .overdraw then s1 else { s1 with shu := s1.shu.waitAfterOverdraw }

/-- The setpoint's ramp and the supervision of one sample (R46, R48 to R50). -/
def rampAndSupervise (slot : Bool) (corrected : Int) (s : State) : State :=
  let bound := overdrawBound s.shu.limit s.cfg.tolerance
  let s1 := { s with shu := (s.shu.ramp s.dmu.chargerAllow).supervise slot corrected bound }
  if s.shu.overdraws slot corrected bound then overdrawRaised corrected s1 else s1

/-- The end of a billing interval (R126). -/
def intervalEnds (s : State) : State :=
  let s1 := writeSnapshot (creditInterval s)
  let s2 := settleDemand s.dmu (reweigh (refreshDemand (rereadDelivered s1)))
  { s2 with mtr := { s2.mtr with interval := s2.mtr.interval.next (currentBand s2) } }

/-- The interval ends at its 240th sample (R118 step 3, R125). -/
def intervalTest (s : State) : State :=
  if inSession s && decide (Config.intervalSamples ≤ s.mtr.interval.count) then intervalEnds s else s

/-- The bus judged, and a report handed to the Station Control (R124, R159, R162). -/
def judgeBus (v : Nat) (s : State) : State :=
  let s1 := { s with mtr := s.mtr.judgePresence s.cfg.busThreshold v }
  if s.mtr.reportsPresent s.cfg.busThreshold v then busPresent s1
  else if s.mtr.reportsLost s.cfg.busThreshold v then busLost s1
  else s1

/-- The slot reading judged: offset, CALIBRATE METER's end, METER_CAL (R123). DONE carries the reading, the offset and the acceptance
(R172); the acceptance goes out as a mark, 1 for accepted and 0 for refused (DESIGN CHOICE, log 46): R123 and R172 give it no coding. -/
def judgeSlot (reading : Int) (s : State) : State :=
  let s1 := { s with mtr := s.mtr.judgeSlot reading }
  let s2 := endCalibrate .done (wordInt reading ++ wordInt s1.mtr.offset ++ wordMark (slotAccepted reading)) s1
  if slotAccepted reading then s2 else raise .meterCal (.number reading) s2

/-- Step 1 and step 2 of R118, in SESSION: energy, then ramp and supervision. -/
def creditSample (slot : Bool) (x : MeterSample) (s : State) : State :=
  if inSession s then rampAndSupervise slot x.corrected { s with mtr := s.mtr.accumulate slot x } else s

/-- Step 5 of R118: the slot is judged unless an earlier step abandoned it. -/
def slotTest (slot : Bool) (reading : Int) (s : State) : State :=
  if slot && decide (s.mtr.cal = .shorted) then judgeSlot reading s else s

/-- The work of a completed sample, in the order of R118, then the next period (R117). -/
def sampleWork (x : MeterSample) (s : State) : State :=
  let slot := decide (s.mtr.cal = .shorted)
  let s1 := intervalTest (creditSample slot x { s with mtr := { s.mtr with latest := some x } })
  let s2 := slotTest slot x.total (judgeBus x.voltage s1)
  { s2 with mtr := s2.mtr.nextPeriod s2.now }

/-- The sample of a period that a session opening abandoned at the very moment of its end: its report that the bus is lost
closes the session (R134), and everything else of it is discarded (R121, log 31). -/
def overtakenSample (v : Nat) (s : State) : State :=
  let r := { s.mtr with overtaken := none }
  if r.reportsLost s.cfg.busThreshold v then busLost { s with mtr := r.judgePresence s.cfg.busThreshold v }
  else { s with mtr := r }

/-- A meter sample completes, where a sample period has run its length (R117, R118), or where a session opening has come just
before it (R134). -/
def sampleCompletes (m : MeterInputs) (s : State) : State :=
  let x := sampleOf s.trm.inUse s.mtr.offset m
  if s.stc.op ≠ .start ∧ due s.now s.mtr.periodEnd = true then sampleWork x s
  else if s.stc.op = .session ∧ s.mtr.overtaken = some s.now then overtakenSample x.voltage s
  else s

/-! ## Converter input (R47) -/

/-- The converter's fault input takes a level; its assertion raises CONVERTER in LISTENING, LINKED and SESSION (R47). -/
def converterInput (asserted : Bool) (s : State) : State :=
  let s1 := { s with shu := { s.shu with faultInput := asserted } }
  if asserted && !s.shu.faultInput && s.stc.op.takesFrames then raiseConverter s1 else s1

end Sys2Proof.Machine
end

