-- ==== Sys2Proof/Machine/LinkCommands.lean ====
section
/-! DEFINITION. The meanings of the vehicle-link commands and of the power-on reset (chapter 12, R168): one definition per command. -/

namespace Sys2Proof.Machine

/-- TRANSACTION (R170). -/
def execTransaction (t clocked : Nat) (s : State) : Host.Outcome State Fault Refusal :=
  .next (event t (openTransaction clocked) s)

/-- NOP (R171): SELN rises; no action and no termination record. -/
def execNop (t : Nat) (s : State) : Host.Outcome State Fault Refusal :=
  .next (event t closeTransaction s)

/-- UNKNOWN_CODE (R171): SELN rises with these bytes shifted in. -/
def execUnknownCode (t : Nat) (bytes : List Byte) (s : State) : Host.Outcome State Fault Refusal :=
  .next (event t (takeRaw bytes) s)

/-- READ_STATUS (R176). -/
def execReadStatus (t : Nat) (tag : Byte) (params : List Byte) (s : State) : Host.Outcome State Fault Refusal :=
  .next (event t (takeRequest codeReadStatus tag params (serveReadStatus tag)) s)

/-- READ_TRIM (R179). -/
def execReadTrim (t : Nat) (tag : Byte) (params : List Byte) (s : State) : Host.Outcome State Fault Refusal :=
  .next (event t (takeRequest codeReadTrim tag params (serveReadTrim tag)) s)

/-- SOFT_RESET (R169). -/
def execSoftReset (t : Nat) (tag : Byte) (params : List Byte) (s : State) : Host.Outcome State Fault Refusal :=
  .next (event t (takeRequest codeSoftReset tag params serveSoftReset) s)

/-- CONFIGURE (R158, R177). -/
def execConfigure (t : Nat) (tag : Byte) (params : List Byte) (s : State) : Host.Outcome State Fault Refusal :=
  .next (event t (takeRequest codeConfigure tag params (serveConfigure tag params)) s)

/-- READ_FAULTS (R166). -/
def execReadFaults (t : Nat) (tag : Byte) (params : List Byte) (s : State) : Host.Outcome State Fault Refusal :=
  .next (event t (takeRequest codeReadFaults tag params (serveReadFaults tag)) s)

/-- READ_SESSION (R142). -/
def execReadSession (t : Nat) (tag : Byte) (params : List Byte) (s : State) : Host.Outcome State Fault Refusal :=
  .next (event t (takeRequest codeReadSession tag params (serveReadSession tag params)) s)

/-- ACK_SESSION (R141). -/
def execAckSession (t : Nat) (tag : Byte) (params : List Byte) (s : State) : Host.Outcome State Fault Refusal :=
  .next (event t (takeRequest codeAckSession tag params (serveAckSession tag params)) s)

/-- READ_TRACE (R116). -/
def execReadTrace (t : Nat) (tag : Byte) (params : List Byte) (s : State) : Host.Outcome State Fault Refusal :=
  .next (event t (takeRequest codeReadTrace tag params (serveReadTrace tag)) s)

/-- SET_TARGET (R54). -/
def execSetTarget (t : Nat) (tag : Byte) (params : List Byte) (s : State) : Host.Outcome State Fault Refusal :=
  .next (event t (takeRequest codeSetTarget tag params (serveSetTarget tag params)) s)

/-- READ_PEERS (R18). -/
def execReadPeers (t : Nat) (tag : Byte) (params : List Byte) (s : State) : Host.Outcome State Fault Refusal :=
  .next (event t (takeRequest codeReadPeers tag params (serveReadPeers tag)) s)

/-- OPEN_SESSION (R134). -/
def execOpenSession (t : Nat) (tag : Byte) (params : List Byte) (s : State) : Host.Outcome State Fault Refusal :=
  .next (event t (takeRequest codeOpenSession tag params (serveOpenSession tag)) s)

/-- CLOSE_SESSION (R160). -/
def execCloseSession (t : Nat) (tag : Byte) (params : List Byte) (s : State) : Host.Outcome State Fault Refusal :=
  .next (event t (takeRequest codeCloseSession tag params (serveCloseSession tag)) s)

/-- MEASURE_NOW (R103). -/
def execMeasureNow (t : Nat) (tag : Byte) (params : List Byte) (s : State) : Host.Outcome State Fault Refusal :=
  .next (event t (takeRequest codeMeasureNow tag params (serveMeasureNow tag)) s)

/-- CALIBRATE_METER (R122). -/
def execCalibrateMeter (t : Nat) (tag : Byte) (params : List Byte) (s : State) : Host.Outcome State Fault Refusal :=
  .next (event t (takeRequest codeCalibrate tag params (serveCalibrate tag)) s)

/-- CLEAR_FAULT (R167). -/
def execClearFault (t : Nat) (tag : Byte) (params : List Byte) (s : State) : Host.Outcome State Fault Refusal :=
  .next (event t (takeRequest codeClearFault tag params (serveClearFault tag)) s)

/-- POWER_ON_RESET (R168). -/
def execPowerOnReset (t : Nat) (s : State) : Host.Outcome State Fault Refusal :=
  .next (event t powerOn s)

end Sys2Proof.Machine
end

