-- ==== Sys2Proof/Machine/LineCommands.lean ====
section
/-! DEFINITION. The meanings of the depot-line commands: arrivals (chapters 1, 6, 7), the framer's discard and the transmitter (chapter 10): one definition per command. -/

namespace Sys2Proof.Machine

/-- ANNOUNCE_ARRIVAL (R3 to R5, R11, R12). -/
def execAnnounceArrival (t : Nat) (h : Header) (f : ShareFields) (s : State) : Host.Outcome State Fault Refusal :=
  .next (event t (arrive h (.announce f)) s)

/-- EPOCH_ARRIVAL (R6, R100). -/
def execEpochArrival (t : Nat) (h : Header) (epoch half : Nat) (s : State) : Host.Outcome State Fault Refusal :=
  .next (event t (arrive h (.epoch epoch half)) s)

/-- FINDING_ARRIVAL (R6, R96, R100). -/
def execFindingArrival (t : Nat) (h : Header) (epoch result r v : Nat) (s : State) : Host.Outcome State Fault Refusal :=
  .next (event t (arrive h (.finding epoch result r v)) s)

/-- CLAIM_ARRIVAL (R6, R109). -/
def execClaimArrival (t : Nat) (h : Header) (epoch rb : Nat) (s : State) : Host.Outcome State Fault Refusal :=
  .next (event t (arrive h (.claim epoch rb)) s)

/-- LEAVE_ARRIVAL (R8). -/
def execLeaveArrival (t : Nat) (h : Header) (s : State) : Host.Outcome State Fault Refusal :=
  .next (event t (arrive h .leave) s)

/-- RECEIVE_DISCARD (R154). -/
def execReceiveDiscard (t begun : Nat) (bits : List Bool) (s : State) : Host.Outcome State Fault Refusal :=
  .next (event t (receiveBits begun bits) s)

/-- ATTEMPT_START (R149). -/
def execAttemptStart (t : Boundary) (s : State) : Host.Outcome State Fault Refusal :=
  .next (event t.moment (attemptStarts t.recessive) s)

/-- ANNOUNCE_SENT (R38, R151). -/
def execAnnounceSent (t : Nat) (s : State) : Host.Outcome State Fault Refusal :=
  .next (event t (frameSent .announce announceSent) s)

/-- EPOCH_SENT (R88, R99, R151). -/
def execEpochSent (t : Nat) (s : State) : Host.Outcome State Fault Refusal :=
  .next (event t (frameSent .epoch (fun _ => epochSent)) s)

/-- FINDING_SENT (R151): no owner is told. -/
def execFindingSent (t : Nat) (s : State) : Host.Outcome State Fault Refusal :=
  .next (event t (frameSent .finding (fun _ => id)) s)

/-- CLAIM_SENT (R17, R151). -/
def execClaimSent (t : Nat) (s : State) : Host.Outcome State Fault Refusal :=
  .next (event t (frameSent .claim (fun _ => emptyIfDone)) s)

/-- LEAVE_SENT (R17, R151). -/
def execLeaveSent (t : Nat) (s : State) : Host.Outcome State Fault Refusal :=
  .next (event t (frameSent .leave (fun _ => emptyIfDone)) s)

/-- ATTEMPT_FAILED (R152). -/
def execAttemptFailed (t : Nat) (s : State) : Host.Outcome State Fault Refusal :=
  .next (event t attemptFails s)

/-- BACKOFF_END (R153). -/
def execBackoffEnd (t : Nat) (s : State) : Host.Outcome State Fault Refusal :=
  .next (event t backoffEnds s)

end Sys2Proof.Machine
end

