-- ==== Sys2Proof/Machine/TimerCommands.lean ====
section
/-! DEFINITION. The meanings of the commands that a timer or a threshold brings: one definition per command. A command whose timer is not running, or whose moment has not come, does nothing but let its time pass (log 4). -/

namespace Sys2Proof.Machine

/-- UNLISTED_PEER_TIMER_EXPIRY (R13). -/
def execUnlistedPeerTimerExpiry (t : Nat) (s : State) : Host.Outcome State Fault Refusal :=
  .next (event t unlistedEnds s)

/-- HOLD_TIMER_EXPIRY (R40). -/
def execHoldTimerExpiry (t : Nat) (s : State) : Host.Outcome State Fault Refusal :=
  .next (event t holdTimerEnds s)

/-- ANNOUNCE_TIMER_EXPIRY (R45). -/
def execAnnounceTimerExpiry (t : Nat) (s : State) : Host.Outcome State Fault Refusal :=
  .next (event t announceTimerEnds s)

/-- LISTEN_WINDOW_EXPIRY (R159). -/
def execListenWindowExpiry (t : Nat) (s : State) : Host.Outcome State Fault Refusal :=
  .next (event t listenWindowEnds s)

/-- IDLE_TIMER_EXPIRY (R82). -/
def execIdleTimerExpiry (t : Nat) (s : State) : Host.Outcome State Fault Refusal :=
  .next (event t idleEnds s)

/-- EPOCH_TIMER_EXPIRY (R86). -/
def execEpochTimerExpiry (t : Nat) (s : State) : Host.Outcome State Fault Refusal :=
  .next (event t epochTimerEnds s)

/-- LOSS_DEADLINE (R97). -/
def execLossDeadline (t : Nat) (s : State) : Host.Outcome State Fault Refusal :=
  .next (event t lossDeadlineEnds s)

/-- CLAIM_WINDOW_EXPIRY (R111). -/
def execClaimWindowExpiry (t : Nat) (s : State) : Host.Outcome State Fault Refusal :=
  .next (event t claimWindowExpires s)

/-- STALE_THRESHOLD (R9). -/
def execStaleThreshold (t code : Nat) (s : State) : Host.Outcome State Fault Refusal :=
  .next (event t (goStale code) s)

/-- REMOVAL_THRESHOLD (R10). -/
def execRemovalThreshold (t code : Nat) (s : State) : Host.Outcome State Fault Refusal :=
  .next (event t (removeSilent code) s)

/-- STAGGER_TIMER_EXPIRY (R75): the expiry brings the switch-on test. -/
def execStaggerTimerExpiry (t : Nat) (s : State) : Host.Outcome State Fault Refusal :=
  .next (eventTested t (fun x => due x.now x.htr.stagger) staggerEnds s)

/-- DOSE_LIMIT (R78). -/
def execDoseLimit (t : Nat) (zone : ZoneId) (s : State) : Host.Outcome State Fault Refusal :=
  .next (event t (doseLimitReached zone) s)

end Sys2Proof.Machine
end

