-- ==== Sys2Proof/Machine/SensorCommands.lean ====
section
/-! DEFINITION. The meanings of the commands that a sensor, a sample or an input pin brings: one definition per command. -/

namespace Sys2Proof.Machine

/-- CYCLE_SAMPLE (R89). -/
def execCycleSample (t : Nat) (u ib : Int) (s : State) : Host.Outcome State Fault Refusal :=
  .next (event t (samplePoint u ib) s)

/-- HALF_END (R89). -/
def execHalfEnd (t : Nat) (u ib : Int) (s : State) : Host.Outcome State Fault Refusal :=
  .next (event t (halfEnds u ib) s)

/-- METER_SAMPLE (R118). -/
def execMeterSample (t : Nat) (m : MeterInputs) (s : State) : Host.Outcome State Fault Refusal :=
  .next (event t (sampleCompletes m) s)

/-- INTERVAL_END (R126): the sample whose completion is the interval's 240th. -/
def execIntervalEnd (t : Nat) (m : MeterInputs) (s : State) : Host.Outcome State Fault Refusal :=
  .next (event t (sampleCompletes m) s)

/-- BUS_PRESENT (R124, R159): the sample whose completion reports the bus present. -/
def execBusPresent (t : Nat) (m : MeterInputs) (s : State) : Host.Outcome State Fault Refusal :=
  .next (event t (sampleCompletes m) s)

/-- BUS_LOST (R124, R162): the sample whose completion reports the bus lost. -/
def execBusLost (t : Nat) (m : MeterInputs) (s : State) : Host.Outcome State Fault Refusal :=
  .next (event t (sampleCompletes m) s)

/-- OVERDRAW (R50): the sample whose completion brings the overdraw count to 4. -/
def execOverdraw (t : Nat) (m : MeterInputs) (s : State) : Host.Outcome State Fault Refusal :=
  .next (event t (sampleCompletes m) s)

/-- TEMPERATURE_CONVERSION (R71, R72): a conversion that stores a reading or moves the zone brings the switch-on test. -/
def execTemperatureConversion (t : Nat) (zone : ZoneId) (c : Conversion) (s : State) : Host.Outcome State Fault Refusal :=
  .next (eventTested t (conversionDue zone c) (conversion zone c) s)

/-- CONVERTER_FAULT_INPUT (R47). -/
def execConverterFaultInput (t : Nat) (asserted : Bool) (s : State) : Host.Outcome State Fault Refusal :=
  .next (event t (converterInput asserted) s)

end Sys2Proof.Machine
end

