-- ==== Sys2Proof/Machine/Dispatch.lean ====
section
/-! DEFINITION. What each command does: one arm per constructor of Instr, each one direct call of its meaning. -/

namespace Sys2Proof.Machine

def exec (i : Instr) (s : State) : Host.Outcome State Fault Refusal :=
  match i with
  | .transaction t clocked => Sys2Proof.Machine.execTransaction t clocked s
  | .nop t => Sys2Proof.Machine.execNop t s
  | .unknownCode t bytes => Sys2Proof.Machine.execUnknownCode t bytes s
  | .readStatus t tag params => Sys2Proof.Machine.execReadStatus t tag params s
  | .readTrim t tag params => Sys2Proof.Machine.execReadTrim t tag params s
  | .softReset t tag params => Sys2Proof.Machine.execSoftReset t tag params s
  | .configure t tag params => Sys2Proof.Machine.execConfigure t tag params s
  | .readFaults t tag params => Sys2Proof.Machine.execReadFaults t tag params s
  | .readSession t tag params => Sys2Proof.Machine.execReadSession t tag params s
  | .ackSession t tag params => Sys2Proof.Machine.execAckSession t tag params s
  | .readTrace t tag params => Sys2Proof.Machine.execReadTrace t tag params s
  | .setTarget t tag params => Sys2Proof.Machine.execSetTarget t tag params s
  | .readPeers t tag params => Sys2Proof.Machine.execReadPeers t tag params s
  | .openSession t tag params => Sys2Proof.Machine.execOpenSession t tag params s
  | .closeSession t tag params => Sys2Proof.Machine.execCloseSession t tag params s
  | .measureNow t tag params => Sys2Proof.Machine.execMeasureNow t tag params s
  | .calibrateMeter t tag params => Sys2Proof.Machine.execCalibrateMeter t tag params s
  | .clearFault t tag params => Sys2Proof.Machine.execClearFault t tag params s
  | .powerOnReset t => Sys2Proof.Machine.execPowerOnReset t s
  | .announceArrival t h f => Sys2Proof.Machine.execAnnounceArrival t h f s
  | .epochArrival t h epoch half => Sys2Proof.Machine.execEpochArrival t h epoch half s
  | .findingArrival t h epoch result r v => Sys2Proof.Machine.execFindingArrival t h epoch result r v s
  | .claimArrival t h epoch rb => Sys2Proof.Machine.execClaimArrival t h epoch rb s
  | .leaveArrival t h => Sys2Proof.Machine.execLeaveArrival t h s
  | .receiveDiscard t begun bits => Sys2Proof.Machine.execReceiveDiscard t begun bits s
  | .attemptStart t => Sys2Proof.Machine.execAttemptStart t s
  | .announceSent t => Sys2Proof.Machine.execAnnounceSent t s
  | .epochSent t => Sys2Proof.Machine.execEpochSent t s
  | .findingSent t => Sys2Proof.Machine.execFindingSent t s
  | .claimSent t => Sys2Proof.Machine.execClaimSent t s
  | .leaveSent t => Sys2Proof.Machine.execLeaveSent t s
  | .attemptFailed t => Sys2Proof.Machine.execAttemptFailed t s
  | .backoffEnd t => Sys2Proof.Machine.execBackoffEnd t s
  | .staleThreshold t code => Sys2Proof.Machine.execStaleThreshold t code s
  | .removalThreshold t code => Sys2Proof.Machine.execRemovalThreshold t code s
  | .unlistedPeerTimerExpiry t => Sys2Proof.Machine.execUnlistedPeerTimerExpiry t s
  | .holdTimerExpiry t => Sys2Proof.Machine.execHoldTimerExpiry t s
  | .announceTimerExpiry t => Sys2Proof.Machine.execAnnounceTimerExpiry t s
  | .listenWindowExpiry t => Sys2Proof.Machine.execListenWindowExpiry t s
  | .staggerTimerExpiry t => Sys2Proof.Machine.execStaggerTimerExpiry t s
  | .idleTimerExpiry t => Sys2Proof.Machine.execIdleTimerExpiry t s
  | .epochTimerExpiry t => Sys2Proof.Machine.execEpochTimerExpiry t s
  | .lossDeadline t => Sys2Proof.Machine.execLossDeadline t s
  | .claimWindowExpiry t => Sys2Proof.Machine.execClaimWindowExpiry t s
  | .doseLimit t zone => Sys2Proof.Machine.execDoseLimit t zone s
  | .cycleSample t u ib => Sys2Proof.Machine.execCycleSample t u ib s
  | .halfEnd t u ib => Sys2Proof.Machine.execHalfEnd t u ib s
  | .meterSample t m => Sys2Proof.Machine.execMeterSample t m s
  | .intervalEnd t m => Sys2Proof.Machine.execIntervalEnd t m s
  | .busPresent t m => Sys2Proof.Machine.execBusPresent t m s
  | .busLost t m => Sys2Proof.Machine.execBusLost t m s
  | .overdraw t m => Sys2Proof.Machine.execOverdraw t m s
  | .temperatureConversion t zone c => Sys2Proof.Machine.execTemperatureConversion t zone c s
  | .converterFaultInput t asserted => Sys2Proof.Machine.execConverterFaultInput t asserted s

end Sys2Proof.Machine
end

