-- ==== Sys2Proof/Machine/Timers.lean ====
section
/-! DEFINITION. What the block does on an empty queue (log 3): the command of a timer or threshold that has come, or one tick. -/

namespace Sys2Proof.Machine

/-- The command when the condition holds. -/
def whenDue (b : Bool) (c : Instr) : Option Instr := if b then some c else none

/-- The first entry whose silence calls for its removal or its going STALE (R9, R10). -/
def ageCommand (s : State) : Option Instr :=
  match s.ptb.entries.find? (fun e => removalDue s.cfg.ta (some e)) with
  | some e => some (.removalThreshold s.now e.code)
  | none =>
      match s.ptb.entries.find? (fun e => staleDue s.cfg.ta (some e)) with
      | some e => some (.staleThreshold s.now e.code)
      | none => none

/-- A zone whose heating time has reached the dose limit (R78). -/
def doseCommand (s : State) : Option Instr :=
  match allZones.find? (fun z =>
      (s.htr.zones.get z).heats && decide (s.cfg.doseLimit * 1000000 ≤ (s.htr.zones.get z).heatTime)) with
  | some z => some (.doseLimit s.now z)
  | none => none

/-- The command of an event of the block's own timers and thresholds that has come and has not been taken, in a fixed order. -/
def dueCommand (s : State) : Option Instr :=
  [ageCommand s, doseCommand s,
    whenDue (due s.now s.ptb.unlisted) (.unlistedPeerTimerExpiry s.now),
    whenDue (due s.now s.shu.holdTimer) (.holdTimerExpiry s.now),
    whenDue (due s.now s.dli.announce) (.announceTimerExpiry s.now),
    whenDue (due s.now s.stc.listenWindow && decide (s.stc.op = .listening)) (.listenWindowExpiry s.now),
    whenDue (due s.now s.htr.stagger) (.staggerTimerExpiry s.now),
    whenDue (due s.now s.htr.idle) (.idleTimerExpiry s.now),
    whenDue (due s.now s.ins.epochTimer) (.epochTimerExpiry s.now),
    whenDue (due s.now s.ins.lossDeadline && decide (s.ins.epochState = .observing)) (.lossDeadline s.now),
    whenDue (due s.now s.epi.window && decide (s.epi.state = .claimWait)) (.claimWindowExpiry s.now),
    whenDue (due s.now s.dli.backoff) (.backoffEnd s.now)].findSome? id

/-- One tick of the model's time passes (log 3). -/
def idleTick (s : State) : State := elapse (s.now + Config.tickMicros) s

end Sys2Proof.Machine
end

