-- ==== Sys2Proof/Safety.lean ====
section
/-! DEFINITION. What a safe state of the station is, in the terms the statements use, and when a request shifted in meets nothing that turns it away. -/

namespace Sys2Proof.Machine

/-- The bus contactor is closed in SESSION and in no other state (R157). -/
def ContactorSafe (s : State) : Prop := s.stc.contactor = decide (s.stc.op = .session)

/-- Outside SESSION the draw limit, the intent, both allowances and the setpoint are 0 and the converter is off (R157, R43, R46). -/
def QuietSafe (s : State) : Prop :=
  s.stc.op ≠ .session → s.shu.limit = 0 ∧ s.shu.intent = 0 ∧ s.shu.setpoint = 0 ∧ s.shu.enable = false ∧
    s.dmu.chargerAllow = 0 ∧ s.dmu.heaterAllow = 0

/-- Epoch work goes on in SESSION alone, and the source is on only in INJECTING (R84, R102). -/
def InjectionSafe (s : State) : Prop :=
  (s.ins.epochState ≠ .idle → s.stc.op = .session) ∧ (s.ins.source ≠ .off → s.ins.epochState = .injecting)

/-- The heater contactor is closed whenever a zone is HEATING, the idle timer does not run then, and outside SESSION no zone is
HEATING and the heater contactor is open (R81, R82, R83). The ratings of the HEATING zones fit the heater allowance, both
allowances together the draw limit, and the setpoint the charger allowance (R46, R64, R76); the zone order names every zone (R68). -/
def HeaterSafe (s : State) : Prop :=
  (s.htr.zones.anyHeating = true → s.htr.contactor = true ∧ s.htr.idle = none) ∧
    (s.stc.op ≠ .session → s.htr.zones.anyHeating = false ∧ s.htr.contactor = false) ∧
    (∀ z, z ∈ s.cfg.zoneOrder) ∧ ratedSum Zone.heats s.htr.zones s.cfg.ratings ≤ s.dmu.heaterAllow ∧
    s.dmu.chargerAllow + s.dmu.heaterAllow ≤ s.shu.limit ∧ s.shu.setpoint ≤ s.dmu.chargerAllow

/-- A record is open in SESSION and in no other state, its snapshot holds it with the lifetime counter, and the log has room for
its close (R136, R140). The numbers in the log ascend, each below the open record's and below the next number (R140); the lifetime
counter less an opening reading, and a closing reading less its opening reading, equal the record's six counters (R128, R136). -/
def SessionSafe (s : State) : Prop :=
  s.ses.openRecord.isSome = decide (s.stc.op = .session) ∧
    s.ses.snapshot.map (fun p => (p.record, p.lifetime)) = s.ses.openRecord.map (fun o => (o, s.mtr.lifetime)) ∧
    s.ses.log.length ≤ Config.logCapacity ∧ (s.ses.openRecord.isSome = true → s.ses.log.length < Config.logCapacity) ∧
    (s.ses.log.map (fun c => c.record.number)).Pairwise (fun a b => a < b) ∧
    (∀ c ∈ s.ses.log, c.record.number < s.ses.nextNumber ∧ c.closing = c.record.opening + c.record.counters.total) ∧
    ∀ o, s.ses.openRecord = some o → o.number < s.ses.nextNumber ∧ (∀ c ∈ s.ses.log, c.record.number < o.number) ∧
      s.mtr.lifetime = o.opening + o.counters.total

/-- The rings stay within their capacities and the counts at their tops (R115, R156, R165). -/
def RingsSafe (s : State) : Prop :=
  s.flt.history.length ≤ Config.historyCapacity ∧ s.trc.entries.length ≤ Config.traceCapacity ∧ s.trc.missed ≤ 255 ∧
    s.dli.dropCount ≤ Config.countTop

/-- The peer table holds at most 24 entries, in strictly ascending order of station code, none of them with the station's own code
(R1, R4, R18). -/
def TableSafe (s : State) : Prop :=
  s.ptb.entries.length ≤ Config.peerCapacity ∧ (s.ptb.entries.map PeerEntry.code).Pairwise (fun a b => a < b) ∧
    ∀ e ∈ s.ptb.entries, e.code ≠ s.cfg.stationCode

/-- The draw limit stays within the intent, and the intent is the grant in the record, computed from F, the margin and the table
as they stand and within the balance; past START the whole record is the one that the figures as they stand give, own demand,
weight and session among them (R20, R30, R31, R62); F is the least feeder limit of the own and the entries' (R14); in STEADY limit
and intent are equal and nothing of a hold runs, and in HOLDING the limit is below the intent (R21, R28, R29, R36, R42). -/
def LimitSafe (s : State) : Prop :=
  let u := s.shu
  u.limit ≤ u.intent ∧ u.intent = u.record.grant ∧ u.intent ≤ u.record.balance.toNat ∧
    (u.hold = .steady → u.limit = u.intent ∧ u.raisePending = false ∧ u.holdStart = none ∧ u.holdTimer = none) ∧
    (u.hold = .holding → u.limit < u.intent) ∧
    s.ptb.feeder = effectiveFeeder s.cfg.feederLimit s.ptb.entries ∧
    u.record.available = s.ptb.feeder * (1000 - s.cfg.margin) / 1000 ∧
    u.record.balance = (u.record.available : Int) - (reservedSum s.ptb.entries : Int) ∧
    (s.stc.op ≠ .start → u.record = computeGrant s.grantInputs)

/-- A transaction is in hand in which a whole request with these parameters was clocked, BUSY was not shown, and the result slot
is empty: nothing of R171 discards the request. -/
def RequestReady (params : List Byte) (s : State) : Prop :=
  ∃ x, s.vlk.txn = some x ∧ 3 + params.length ≤ x.clocked ∧ busyBit x.status = false ∧ s.vlk.slot = none

/-- The constructors of the fifteen requests of the vehicle link, with their codes (R182). -/
def requests : List (Byte × (Nat → Byte → List Byte → Instr)) :=
  [(0x01#8, .readStatus), (0x02#8, .readTrim), (0x03#8, .softReset), (0x04#8, .configure), (0x05#8, .readFaults),
    (0x06#8, .readSession), (0x07#8, .ackSession), (0x08#8, .readTrace), (0x09#8, .setTarget), (0x0A#8, .readPeers),
    (0x0B#8, .openSession), (0x0C#8, .closeSession), (0x0D#8, .measureNow), (0x0E#8, .calibrateMeter),
    (0x0F#8, .clearFault)]

/-- The operating states in which each request of R173's table is served. -/
def servedStates : List (Byte × List OpState) :=
  let all := [.start, .ready, .listening, .linked, .session, .halted]
  let beyondStart := [.ready, .listening, .linked, .session, .halted]
  [(0x01#8, all), (0x02#8, all), (0x03#8, all), (0x04#8, [.start]), (0x05#8, all), (0x06#8, all), (0x07#8, all), (0x08#8, all),
    (0x09#8, beyondStart), (0x0A#8, [.listening, .linked, .session]), (0x0B#8, [.linked]), (0x0C#8, [.session]),
    (0x0D#8, [.session]), (0x0E#8, [.linked, .session]), (0x0F#8, beyondStart)]

/-- The parameter bytes of each request (R182). -/
def requestLengths : List (Byte × Nat) :=
  [(0x01#8, 0), (0x02#8, 0), (0x03#8, 0), (0x04#8, 91), (0x05#8, 0), (0x06#8, 1), (0x07#8, 4), (0x08#8, 0), (0x09#8, 8),
    (0x0A#8, 0), (0x0B#8, 0), (0x0C#8, 0), (0x0D#8, 0), (0x0E#8, 0), (0x0F#8, 0)]

/-- One field of the configuration block: its number, its offset in the block, its range, its default, and its setting (R178,
R182). -/
structure FieldRow (α : Type) where
  number  : Nat
  offset  : Nat
  least   : α
  most    : α
  dflt    : Option α
  setting : Settings → α

/-- The two-byte unsigned fields of the configuration block that stand alone (R182). -/
def plainFields : List (FieldRow Nat) :=
  [⟨2, 6, 100, 40000, none, Settings.feederLimit⟩, ⟨3, 8, 0, 200, some 50, Settings.margin⟩,
    ⟨4, 10, 200, 2000, some 500, Settings.ta⟩, ⟨5, 12, 10, 3000, none, Settings.ist⟩,
    ⟨6, 14, 10, 3000, none, Settings.irating⟩, ⟨7, 16, 1000, 10000, none, Settings.nominalV⟩,
    ⟨8, 18, 100, 10000, some 2000, Settings.busThreshold⟩, ⟨9, 20, 0, 200, some 10, Settings.tolerance⟩,
    ⟨18, 75, 60, 7200, some 3600, Settings.doseLimit⟩, ⟨19, 77, 10, 300, some 30, Settings.epochInterval⟩,
    ⟨20, 79, 100, 2000, some 500, Settings.warn⟩, ⟨23, 85, 0, 1000, some 850, Settings.peakBand⟩]

/-- The signed fields of the configuration block (R182). -/
def signedFields : List (FieldRow Int) :=
  [⟨12, 55, -500, 1000, some 0, Settings.tPermit⟩, ⟨15, 69, -200, 400, some 100, Settings.tTarget⟩,
    ⟨16, 71, 0, 200, some 20, Settings.hysteresis⟩, ⟨17, 73, 0, 1000, some 450, Settings.tCut⟩]

/-- What a field stands at before its range is applied: as sent, or its default where its bit is set and it has one (R178). -/
def fieldTaken {α : Type} (mask n : Nat) (dflt : Option α) (sent : α) : α :=
  match dflt with
  | some d => if mask.testBit n then d else sent
  | none => sent

/-- An accepted configuration block gives these settings with this clamp mask (R178): each field as sent or, where its default bit
is set and it has a default, the default, then brought within its range with its bit in the clamp mask; one bit stands for the
derate table and one for the ratings; the alarm threshold is at most the warn threshold and the LOW band threshold at most the
PEAK one. -/
def BlockSettled (bs : List Byte) (c : Settings) (clamp : Nat) : Prop :=
  let mask := fieldAt bs 0 4
  let derate := fun (k : Nat) => if mask.testBit 11 then defaultDerate.getD k 0 else fieldAt bs (23 + 2 * k) 2
  let alarm := fieldTaken mask 21 (some 100) (fieldAt bs 81 2)
  let low := fieldTaken mask 22 (some 500) (fieldAt bs 83 2)
  c.stationCode = fieldAt bs 4 1 ∧ c.depotCode = fieldAt bs 5 1 ∧
    (∀ x ∈ plainFields, let v := fieldTaken mask x.number x.dflt (fieldAt bs x.offset 2)
      x.setting c = max x.least (min v x.most) ∧ (clamp.testBit x.number = true ↔ v < x.least ∨ x.most < v)) ∧
    (∀ x ∈ signedFields, let v := fieldTaken mask x.number x.dflt (signed16 (fieldAt bs x.offset 2))
      x.setting c = max x.least (min v x.most) ∧ (clamp.testBit x.number = true ↔ v < x.least ∨ x.most < v)) ∧
    c.alarm = min (max 50 (min alarm 1000)) c.warn ∧
    (clamp.testBit 21 = true ↔ alarm < 50 ∨ 1000 < alarm ∨ c.warn < max 50 (min alarm 1000)) ∧
    c.lowBand = min (min low 1000) c.peakBand ∧ (clamp.testBit 22 = true ↔ 1000 < low ∨ c.peakBand < min low 1000) ∧
    c.derate.length = 16 ∧ (∀ k, k < 16 → c.derate.getD k 0 = min (derate k) 1000) ∧
    (clamp.testBit 11 = true ↔ ∃ k, k < 16 ∧ 1000 < derate k) ∧
    c.ratings = ⟨min (fieldAt bs 61 2) 300, min (fieldAt bs 63 2) 300, min (fieldAt bs 65 2) 300, min (fieldAt bs 67 2) 300⟩ ∧
    (clamp.testBit 14 = true ↔
      300 < fieldAt bs 61 2 ∨ 300 < fieldAt bs 63 2 ∨ 300 < fieldAt bs 65 2 ∨ 300 < fieldAt bs 67 2) ∧
    c.policies = (if mask.testBit 10 then Policies.default else
      { insBus := (fieldAt bs 22 1).testBit 0, insUnsettled := (fieldAt bs 22 1).testBit 1,
        overdraw := (fieldAt bs 22 1).testBit 2, heaterAllOut := (fieldAt bs 22 1).testBit 3,
        meterCal := (fieldAt bs 22 1).testBit 4 }) ∧
    (mask.testBit 13 = true → c.zoneOrder = [.z1, .z2, .z3, .z4]) ∧
    (mask.testBit 13 = false → c.zoneOrder.map zoneNumber = ((bs.drop 57).take 4).map BitVec.toNat) ∧
    (∀ n, n ∉ [2, 3, 4, 5, 6, 7, 8, 9, 11, 12, 14, 15, 16, 17, 18, 19, 20, 21, 22, 23] → clamp.testBit n = false)

/-- A frame of another station passes the framer and the own-code check and reaches the Peer Table block: the station is not
sending (R3, R11, R150, R154). -/
def Reaches (h : Header) (s : State) : Prop :=
  s.dli.attempt = none ∧
  headerOk s.cfg.depotCode h.code h.depot = true ∧ framerTook s h.begun = true ∧ h.code ≠ s.cfg.stationCode ∧
    s.stc.op.takesFrames = true

/-- Moment, queue, settings, meter, sessions, station control, trace and trim are as they were. -/
def RestKept (s t : State) : Prop :=
  t.now = s.now ∧ t.pending = s.pending ∧ t.cfg = s.cfg ∧ t.mtr = s.mtr ∧ t.ses = s.ses ∧ t.stc = s.stc ∧ t.trc = s.trc ∧
    t.trm = s.trm

/-- A zone's heating time is as it was, or, where it stood at the dose limit and the heating ended first, just short of it (R78);
that just short is one microsecond is the model's reading, log 14. -/
def HeatTimeKept (limit : Nat) (x y : Zone) : Prop :=
  y.heatTime = x.heatTime ∨ limit * 1000000 ≤ x.heatTime ∧ y.heatTime = limit * 1000000 - 1

/-- The zones' readings, heating times and causes are as they were, and no zone enters or leaves OUT or WARM: only WAITING and
HEATING may have changed places. A zone switched off at the dose limit keeps a heating time one microsecond short of it (log 14). -/
def ZonesKept (limit : Nat) (p q : Quad Zone) : Prop :=
  ∀ z, (q.get z).temp = (p.get z).temp ∧ HeatTimeKept limit (p.get z) (q.get z) ∧ (q.get z).outCause = (p.get z).outCause ∧
    ((q.get z).state = .out ↔ (p.get z).state = .out) ∧ ((q.get z).state = .warm ↔ (p.get z).state = .warm)

/-- The grant in the record applied to the limit and the intent by the first case of R37 that matches: G below L lowers both, ends
the hold and starts the exclusion (R49); G below I lowers the intent and ends the hold where it meets L (R39); G above I raises
the intent, and the hold begins afresh with the raise pending (R38); G equal to I changes nothing. -/
def grantTaken (u : Shu) : Shu :=
  let g := u.record.grant
  if g < u.limit then
    { u with limit := g, intent := g, hold := .steady, raisePending := false, holdStart := none, holdTimer := none
             overCount := 0, exclusion := 4 }
  else if g < u.intent then
    if g = u.limit then
      { u with intent := g, hold := .steady, raisePending := false, holdStart := none, holdTimer := none }
    else { u with intent := g }
  else if u.intent < g then
    { u with intent := g, hold := .holding, raisePending := true, holdStart := none, holdTimer := none }
  else u

/-- A fault's entry recorded (R165): the history is a ring of 12, where the oldest entry gives way once it is full, and the
first-out takes the entry only while it is empty. -/
def faultAdded (e : FaultEntry) (f : Flt) : Flt :=
  { history := (if f.history.length < 12 then f.history else f.history.drop 1) ++ [e]
    firstOut := if f.firstOut = none then some e else f.firstOut }

/-- A finding entered in the trace (R115): a ring of 32, where the oldest entry gives way once it is full; while the trace is
frozen no entry is made and the missed count rises, to at most 255. -/
def traceTaken (e : TraceEntry) (t : Trc) : Trc :=
  if t.frozen = true then { t with missed := min (t.missed + 1) 255 }
  else { t with entries := (if t.entries.length < 32 then t.entries else t.entries.drop 1) ++ [e] }

/-- What a change of the table has done once it is passed on (R14 to R16, R30, R31, R37 to R40, R49, R65), from the state `b` with
the changed table to `t`: F and the mismatch onset, one grant record from the figures, taken by the four cases of R37 written out
in `grantTaken` (R38, R39, R49), the hold test, one split, the setpoint brought down, an ANNOUNCE queued where a case asks for it,
LIMIT_MISMATCH where an onset begins. -/
def TableSettled (b t : State) : Prop :=
  let own := b.cfg.feederLimit
  let u0 : Shu := { b.shu with record := computeGrant t.grantInputs }
  let u := grantTaken u0
  let completes := holdComplete b.now b.cfg.ta t.ptb.entries u
  let begins := b.ptb.mismatch = false ∧ t.ptb.feeder < own
  RestKept b t ∧ t.ins = b.ins ∧ t.htr.window = b.htr.window ∧ t.htr.cycleStart = b.htr.cycleStart ∧
    t.htr.converted = b.htr.converted ∧ ZonesKept b.cfg.doseLimit b.htr.zones t.htr.zones ∧
    t.ptb.feeder = effectiveFeeder own t.ptb.entries ∧ t.ptb.mismatch = decide (t.ptb.feeder < own) ∧
    t.shu = (if completes then u.complete else u).lowerSetpoint t.dmu.chargerAllow ∧
    t.dmu = b.dmu.split b.cfg.tPermit t.shu.limit ∧
    t.dli = (if u0.record.grant < u0.limit ∨ u0.record.grant ≠ u0.intent ∨ completes = true then b.dli.queueFrame b.stc.op .announce .none else b.dli) ∧
    t.flt = (if begins then
      faultAdded { time := clock b, code := .limitMismatch,
                   detail := .number (leastFeederCode t.ptb.feeder t.ptb.entries), state := b.stc.op } b.flt else b.flt) ∧
    t.vlk = (if begins then { b.vlk with marks := { b.vlk.marks with fault := true } } else b.vlk)

/-- What a recomputation of the demand figures has done once it is passed on (R30, R31, R37 to R39, R49, R62, R64, R65), from the
state `b` before it to `t`: one grant record from the figures, taken by the four cases of R37, with the ANNOUNCE queued where it
moves limit or intent, if `again` says so, which in an event that only recomputes is where own demand or weight has changed; then
one split of the draw limit, and the setpoint brought down. -/
def DemandSettled (again : Prop) [Decidable again] (b t : State) : Prop :=
  let u0 : Shu := { b.shu with record := computeGrant t.grantInputs }
  t.shu = (if again then grantTaken u0 else b.shu).lowerSetpoint t.dmu.chargerAllow ∧
    t.dmu = t.dmu.split b.cfg.tPermit t.shu.limit ∧
    t.dli = (if again ∧ (u0.record.grant < u0.limit ∨ u0.record.grant ≠ u0.intent) then
      b.dli.queueFrame t.stc.op .announce .none else b.dli)

/-- Own demand or weight differs between the two states (R54, R65, R72). -/
abbrev FiguresMoved (b t : State) : Prop := t.dmu.ownDemand ≠ b.dmu.ownDemand ∨ t.dmu.weight ≠ b.dmu.weight

/-- A change of the table to the entries `es` begins a mismatch onset (R14, R15). -/
abbrev MismatchBegins (b : State) (es : List PeerEntry) : Prop :=
  b.ptb.mismatch = false ∧ effectiveFeeder b.cfg.feederLimit es < b.cfg.feederLimit

/-- What the refresh of an entry by an EPOCH, FINDING or CLAIM has done once it is passed on (R6, R16), from the state `b` with the
frame's own work done to `t`, where `es` are the entries before the frame: for a sender that was STALE a change of the table, and
otherwise nothing to the shares, the demand, the transmit queue, the faults and F. -/
def RefreshSettled (code : Nat) (es : List PeerEntry) (b t : State) : Prop :=
  (wasStale code es = true → TableSettled b t) ∧
    (wasStale code es = false → t.shu = b.shu ∧ t.dmu = b.dmu ∧ t.dli = b.dli ∧ t.flt = b.flt ∧ t.vlk = b.vlk ∧
      t.ptb.feeder = b.ptb.feeder ∧ t.ptb.mismatch = b.ptb.mismatch)

/-- The moment of a timer or deadline has come. -/
def Passed (now : Nat) (timer : Option Nat) : Prop := ∃ m, timer = some m ∧ m ≤ now

/-- The command is that of an event of the block's own which is due at the present moment: an entry's silence at a threshold (R9,
R10), a HEATING zone at the dose limit (R78), a timer, deadline or backoff run out (R13, R40, R45, R74, R82, R86, R97, R111, R153,
R159). -/
def OwnEventDue (s : State) : Instr → Prop
  | .removalThreshold t code => t = s.now ∧ ∃ e ∈ s.ptb.entries, e.code = code ∧ 6 * s.cfg.ta * 1000 ≤ e.silence
  | .staleThreshold t code =>
      t = s.now ∧ ∃ e ∈ s.ptb.entries, e.code = code ∧ e.freshness = .fresh ∧ 3 * s.cfg.ta * 1000 ≤ e.silence
  | .doseLimit t z => t = s.now ∧ (s.htr.zones.get z).state = .heating ∧
      s.cfg.doseLimit * 1000000 ≤ (s.htr.zones.get z).heatTime
  | .unlistedPeerTimerExpiry t => t = s.now ∧ Passed s.now s.ptb.unlisted
  | .holdTimerExpiry t => t = s.now ∧ Passed s.now s.shu.holdTimer
  | .announceTimerExpiry t => t = s.now ∧ Passed s.now s.dli.announce
  | .listenWindowExpiry t => t = s.now ∧ s.stc.op = .listening ∧ Passed s.now s.stc.listenWindow
  | .staggerTimerExpiry t => t = s.now ∧ Passed s.now s.htr.stagger
  | .idleTimerExpiry t => t = s.now ∧ Passed s.now s.htr.idle
  | .epochTimerExpiry t => t = s.now ∧ Passed s.now s.ins.epochTimer
  | .lossDeadline t => t = s.now ∧ s.ins.epochState = .observing ∧ Passed s.now s.ins.lossDeadline
  | .claimWindowExpiry t => t = s.now ∧ s.epi.state = .claimWait ∧ Passed s.now s.epi.window
  | .backoffEnd t => t = s.now ∧ Passed s.now s.dli.backoff
  | _ => False

/-- The five commands that are the completion of a meter sample (R118). -/
def sampleCommands : List (Nat → MeterInputs → Instr) := [.meterSample, .intervalEnd, .busPresent, .busLost, .overdraw]

/-- The arrival command of a payload. -/
def arrivalOf (t : Nat) (h : Header) : Payload → Instr
  | .announce f => .announceArrival t h f
  | .epoch n half => .epochArrival t h n half
  | .finding n result r v => .findingArrival t h n result r v
  | .claim n rb => .claimArrival t h n rb
  | .leave => .leaveArrival t h

/-- The entries with the one of this code refreshed by a frame that is no ANNOUNCE (R6). -/
def refreshedEntries (code : Nat) (es : List PeerEntry) : List PeerEntry :=
  es.map (fun e => if e.code = code then { e with freshness := .fresh, silence := 0 } else e)

/-- The claimant mark of every entry agrees with the claimant set (R4, R105). -/
def MarksAgree (s : State) : Prop := ∀ e ∈ s.ptb.entries, e.claimant = isMember e.code s.epi.claimants

/-- The same entries, their claimant marks aside. -/
def SameEntries (es fs : List PeerEntry) : Prop :=
  es.map (fun e => { e with claimant := false }) = fs.map (fun e => { e with claimant := false })

/-- The history's last entry is this fault with this detail. -/
def LastFault (c : FaultCode) (d : FaultDetail) (s : State) : Prop :=
  ∃ e, s.flt.history.getLast? = some e ∧ e.code = c ∧ e.detail = d

/-- From the state `b` to `t` this fault alone has been raised, with this detail (R165): its entry holds the time and the
operating state of the raise, and FAULT is pending. -/
def FaultRaised (c : FaultCode) (d : FaultDetail) (b t : State) : Prop :=
  t.flt = faultAdded { time := clock b, code := c, detail := d, state := b.stc.op } b.flt ∧ t.vlk.marks.fault = true

/-- The faults of a zone's move to OUT, from the state `b` before it to `t` (R79, R80): HEATER_ZONE; and where the other zones are
OUT already, HEATER_ALL_OUT after it with the same detail, which halts a station on the line under the stop policy and leaves the
operating state under the continue policy. -/
def OutRaised (z : ZoneId) (cause : OutCause) (b t : State) : Prop :=
  let entry := fun (c : FaultCode) =>
    ({ time := clock b, code := c, detail := .zone z cause, state := b.stc.op } : FaultEntry)
  let last := ∀ w, w ≠ z → (b.htr.zones.get w).state = .out
  t.vlk.marks.fault = true ∧
  (last → t.flt = faultAdded (entry .heaterAllOut) (faultAdded (entry .heaterZone) b.flt) ∧
    (b.cfg.policies.heaterAllOut = true → b.stc.op.takesFrames = true → t.stc.op = .halted) ∧
    (b.cfg.policies.heaterAllOut = false ∨ b.stc.op.takesFrames = false → t.stc = b.stc)) ∧
  (¬ last → t.flt = faultAdded (entry .heaterZone) b.flt ∧ t.stc = b.stc)

/-- What the adoption of an ACCEPTED finding has done, from the state `b` to `q`, where `branch` is the branch record's result for
the finding's epoch and measurer (R100, R104, R106, R107, R110, R112, R115): the bus record, one trace entry, and the evaluation
by the state and the band as R106 tabulates. NORMAL and WARNING change places or begin an onset, ATTRIBUTED ends outside the alarm
band, the latched states stay. An onset, and an alarm finding in CLAIM_WAIT, ATTRIBUTED and BUS_FAULT, makes a station claim whose
own branch result is below the alarm threshold. -/
def FindingAdopted (b : State) (branch : Option (Option Nat)) (epoch measurer r v : Nat) (q : State) : Prop :=
  let warnK := b.cfg.warn * v / 10000
  let alarmK := b.cfg.alarm * v / 10000
  let top := alarmK ≤ r ∧ warnK ≤ r
  let middle := alarmK ≤ r ∧ r < warnK
  let calm := b.epi.state = .normal ∨ b.epi.state = .warning
  let cs := b.epi.claimants.filter (fun c => decide (c.epoch = epoch))
  let figures : Onset := { epoch := epoch, measurer := measurer, r := r, voltage := v, warnK := warnK, alarmK := alarmK }
  let entered := traceTaken
    { epoch := epoch, measurer := measurer, r := some r, voltage := v, branch := branch, time := clock b } b.trc
  let fault := fun (c : FaultCode) (d : Nat) (op : OpState) =>
    faultAdded { time := clock b, code := c, detail := .number d, state := op }
  let claims := b.stc.op = .session ∧ ∃ rb, branch = some (some rb) ∧ rb < alarmK
  let moved := fun (e : Epi) => q.epi = e ∧ RestKept { b with trc := q.trc } q
  let quiet := fun (e : Epi) => moved e ∧ q.flt = b.flt
  let halted := q.stc.op = .halted ∧ (ContactorSafe b → q.stc.contactor = false) ∧ (MarksAgree b → MarksAgree q) ∧
    q.vlk.marks.fault = true ∧ q.dli.queue.leave = some { content := .none, failed := 0 }
  let doubled := fun (o : Option Onset) (members : List Claimant) => halted ∧ q.flt = fault .insDouble r b.stc.op b.flt ∧
    q.epi = { state := .doubleFault, claimants := members, window := none, onset := o }
  let claimed := fun (o : Option Onset) (members : List Claimant) (waits : Prop) => ∀ rb, b.stc.op = .session →
    branch = some (some rb) → rb < alarmK →
    let joined := joinClaimant { code := b.cfg.stationCode, epoch := epoch, rb := rb, departed := false } members
    halted ∧ q.dli.queue.claim = some { content := .claim epoch rb, failed := 0 } ∧
    (waits → joined.length = 1 → q.flt = fault .insLocal rb .session b.flt ∧
      q.epi = { state := .localFault, claimants := joined, window := none, onset := o }) ∧
    (¬ waits ∨ joined.length ≠ 1 → q.flt = fault .insDouble rb .halted (fault .insLocal rb .session b.flt) ∧
      q.epi = { state := .doubleFault, claimants := joined, window := none, onset := o })
  q.ins.busRecord = some { epoch := epoch, measurer := measurer, r := r, voltage := v, time := clock b } ∧
  q.trc = (if calm ∧ r < alarmK then { entered with frozen := true } else entered) ∧
  (calm → r < alarmK → b.trc.frozen = false → q.vlk.marks.traceFrozen = true) ∧
  (b.epi.state = .normal → top → quiet b.epi) ∧
  (b.epi.state = .normal → middle → moved { b.epi with state := .warning, window := none } ∧
    FaultRaised .insWarn (.number r) b q) ∧
  (b.epi.state = .warning → top → quiet { b.epi with state := .normal, window := none }) ∧
  (b.epi.state = .warning → middle → quiet b.epi) ∧
  (calm → r < alarmK → claimed (some figures) cs True) ∧
  (calm → r < alarmK → ¬ claims → cs.length < 2 → MarksAgree q ∧
    quiet { state := .claimWait, claimants := cs, window := some (b.now + 3 * b.cfg.ta * 1000), onset := some figures }) ∧
  (calm → r < alarmK → ¬ claims → 2 ≤ cs.length → doubled (some figures) cs) ∧
  (b.epi.state = .claimWait → r < alarmK → claimed b.epi.onset b.epi.claimants True) ∧
  (b.epi.state = .claimWait → alarmK ≤ r ∨ ¬ claims → quiet b.epi) ∧
  (b.epi.state = .attributed → top → MarksAgree q ∧
    quiet { b.epi with state := .normal, claimants := [], window := none }) ∧
  (b.epi.state = .attributed → middle → MarksAgree q ∧
    quiet { b.epi with state := .warning, claimants := [], window := none }) ∧
  (b.epi.state = .attributed → r < alarmK → claimed b.epi.onset b.epi.claimants False) ∧
  (∀ c, b.epi.state = .attributed → r < alarmK → ¬ claims → b.epi.claimants = [c] →
    (c.departed = true → doubled b.epi.onset [c]) ∧ (c.departed = false → quiet b.epi)) ∧
  (b.epi.state = .busFault → r < alarmK → claimed b.epi.onset b.epi.claimants False) ∧
  (b.epi.state = .busFault → alarmK ≤ r ∨ ¬ claims → quiet b.epi) ∧
  (b.epi.state = .localFault ∨ b.epi.state = .doubleFault → quiet b.epi)

/-- The bus voltage of the latest meter sample, and 0 where there is none, which no session meets (R94). -/
def sampledVoltage (s : State) : Nat := match s.mtr.latest with
  | some x => x.voltage
  | none => 0

/-- The result that a branch track leaves in the branch record: R_b where it is accepted, UNSETTLED otherwise (R94, R96, R97). -/
def trackResult : BranchTrack → Option Nat
  | .accepted x => some x
  | _ => none

/-- A branch track after its cycle in progress is discarded (R93, R98, R99): the held estimate is cleared, and an accepted or
UNSETTLED track stays. -/
def heldCleared : BranchTrack → BranchTrack
  | .held _ => .absent
  | b => b

/-- A branch track after its sixth cycle is cut short (R93, R98): without an acceptance before it, UNSETTLED. -/
def sixthCut : BranchTrack → BranchTrack
  | .accepted rb => .accepted rb
  | _ => .unsettled

/-- What the end of an own epoch has done, whatever its result, from the state `b` with the branch track given to `q` (R94 steps 1
to 3 and 6, R102): the branch record, the source off, the window closed, the FINDING queued, IDLE with nothing of the epoch's
cycles left, and the epoch timer started where the station is in SESSION still, and stopped where a fault has moved it out. -/
def OwnEpochEnded (b : State) (track : BranchTrack) (finding : TxContent) (q : State) : Prop :=
  q.ins.branchRecord = some { epoch := b.ins.epochNumber, injector := b.ins.injector, result := trackResult track } ∧
    q.ins.epochState = .idle ∧ q.ins.source = .off ∧ q.ins.cycleRecord = none ∧ q.ins.busTrack = none ∧
    q.ins.branchTrack = .absent ∧ q.ins.resend = false ∧ q.ins.lastEpoch = b.ins.lastEpoch ∧
    q.ins.epochTimer = (if q.stc.op = .session then
      some (b.now + (b.cfg.epochInterval * 1000 + b.cfg.stationCode * 100) * 1000) else none) ∧
    q.dli.queue.finding = some { content := finding, failed := 0 } ∧ q.htr.window = false ∧
    SameEntries q.ptb.entries b.ptb.entries ∧ q.ptb.unlisted = b.ptb.unlisted ∧
    (q.stc.op = .session → q.shu = b.shu ∧ q.dmu = b.dmu ∧ ZonesKept b.cfg.doseLimit b.htr.zones q.htr.zones) ∧
    q.cfg = b.cfg ∧ q.trm = b.trm ∧ q.now = b.now ∧ q.pending = b.pending

/-- The branch result that the own finding meets: that of the branch record just set, whose injector is the station itself (R94,
R107, R115). -/
def ownBranch (b : State) (track : BranchTrack) : Option (Option Nat) :=
  if b.ins.injector = b.cfg.stationCode then some (trackResult track) else none

/-- An own epoch has ended ACCEPTED with `x` (R94): its FINDING carries `x` and the sampled voltage, and the station adopts it. -/
def EpochAccepted (b : State) (track : BranchTrack) (x : Nat) (q : State) : Prop :=
  OwnEpochEnded b track (.finding b.ins.epochNumber 0 x (sampledVoltage b)) q ∧
    FindingAdopted b (ownBranch b track) b.ins.epochNumber b.cfg.stationCode x (sampledVoltage b) q

/-- An own epoch has ended UNSETTLED (R94, R101, R115): the bus record stays, the finding enters the trace once, and INS_UNSETTLED
is raised with the detail given, which halts under the stop policy alone. -/
def EpochUnsettled (b : State) (track : BranchTrack) (detail : Nat) (q : State) : Prop :=
  OwnEpochEnded b track (.finding b.ins.epochNumber 1 0 (sampledVoltage b)) q ∧ q.ins.busRecord = b.ins.busRecord ∧
    q.trc = traceTaken { epoch := b.ins.epochNumber, measurer := b.cfg.stationCode, r := none, voltage := sampledVoltage b,
                         branch := ownBranch b track, time := clock b } b.trc ∧
    FaultRaised .insUnsettled (.number detail) b q ∧ q.epi.onset = b.epi.onset ∧
    (b.cfg.policies.insUnsettled = false → RestKept { b with trc := q.trc } q ∧ q.epi = b.epi ∧ q.ptb = b.ptb) ∧
    (b.cfg.policies.insUnsettled = true → q.stc.op = .halted ∧ q.stc.contactor = false ∧
      q.dli.queue.leave = some { content := .none, failed := 0 })

end Sys2Proof.Machine
end

