-- ==== Sys2Proof/WellFormed.lean ====
section
/-! DEFINITION. What a command must be like to be one the outside can send: fields within their bytes, request lengths within the length byte, readings within the converter's scale. -/

namespace Sys2Proof

/-- A number fits in one byte (R180). -/
def fitsByte (n : Nat) : Bool := decide (n ≤ 255)

/-- A number fits in two bytes (R180). -/
def fitsPair (n : Nat) : Bool := decide (n ≤ 65535)

/-- A station code (R1). -/
def isCode (n : Nat) : Bool := decide (1 ≤ n ∧ n ≤ 63)

/-- The header's code and depot code are bytes (R180). -/
def Header.fits (h : Header) : Bool := fitsByte h.code && fitsByte h.depot

/-- The share fields fit their bytes (R180). -/
def ShareFields.fits (f : ShareFields) : Bool :=
  fitsPair f.feederLimit && fitsPair f.demand && fitsByte f.weight && fitsPair f.limit && fitsPair f.intent

/-- A request's parameters are as many as its length byte can say (R182). -/
def paramsFit (params : List Byte) : Bool := fitsByte params.length

/-- The bytes of UNKNOWN_CODE spell no request of their own row: incomplete, or a code above 0Fh (R171, R182). -/
def spellsNoRequest (bytes : List Byte) : Bool :=
  decide (bytes.length < 3 ∨ bytes.length < 3 + (bytes.getD 2 0).toNat ∨ 15 < (bytes.getD 0 0).toNat)

/-- A conversion's reading lies on the converter's scale (R70). -/
def Conversion.onScale : Conversion → Bool
  | .reading d => decide (-500 ≤ d ∧ d ≤ 1000)
  | .openCircuit => true
  | .shortCircuit => true

/-- The line reading of RECEIVE_DISCARD begins with a dominant start bit (R144). -/
def startsDominant : List Bool → Bool
  | [] => false
  | b :: _ => !b

/-- The command is one the outside can send. -/
def wellFormed (i : Instr) : Bool :=
  match i with
  | .transaction _ _ => true
  | .nop _ => true
  | .unknownCode _ bytes => spellsNoRequest bytes
  | .readStatus _ _ params => paramsFit params
  | .readTrim _ _ params => paramsFit params
  | .softReset _ _ params => paramsFit params
  | .configure _ _ params => paramsFit params
  | .readFaults _ _ params => paramsFit params
  | .readSession _ _ params => paramsFit params
  | .ackSession _ _ params => paramsFit params
  | .readTrace _ _ params => paramsFit params
  | .setTarget _ _ params => paramsFit params
  | .readPeers _ _ params => paramsFit params
  | .openSession _ _ params => paramsFit params
  | .closeSession _ _ params => paramsFit params
  | .measureNow _ _ params => paramsFit params
  | .calibrateMeter _ _ params => paramsFit params
  | .clearFault _ _ params => paramsFit params
  | .powerOnReset _ => true
  | .announceArrival _ h f => h.fits && f.fits
  | .epochArrival _ h epoch half => h.fits && fitsByte epoch && fitsPair half
  | .findingArrival _ h epoch result r v => h.fits && fitsByte epoch && fitsByte result && fitsPair r && fitsPair v
  | .claimArrival _ h epoch rb => h.fits && fitsByte epoch && fitsPair rb
  | .leaveArrival _ h => h.fits
  | .receiveDiscard _ _ bits => startsDominant bits
  | .attemptStart _ => true
  | .announceSent _ => true
  | .epochSent _ => true
  | .findingSent _ => true
  | .claimSent _ => true
  | .leaveSent _ => true
  | .attemptFailed _ => true
  | .backoffEnd _ => true
  | .staleThreshold _ code => isCode code
  | .removalThreshold _ code => isCode code
  | .unlistedPeerTimerExpiry _ => true
  | .holdTimerExpiry _ => true
  | .announceTimerExpiry _ => true
  | .listenWindowExpiry _ => true
  | .staggerTimerExpiry _ => true
  | .idleTimerExpiry _ => true
  | .epochTimerExpiry _ => true
  | .lossDeadline _ => true
  | .claimWindowExpiry _ => true
  | .doseLimit _ _ => true
  | .cycleSample _ _ _ => true
  | .halfEnd _ _ _ => true
  | .meterSample _ _ => true
  | .intervalEnd _ _ => true
  | .busPresent _ _ => true
  | .busLost _ _ => true
  | .overdraw _ _ => true
  | .temperatureConversion _ _ c => c.onScale
  | .converterFaultInput _ _ => true

/-- The moment the command happens (log 2). -/
def Instr.moment (i : Instr) : Nat :=
  match i with
  | .transaction t _ => t
  | .nop t => t
  | .unknownCode t _ => t
  | .readStatus t _ _ => t
  | .readTrim t _ _ => t
  | .softReset t _ _ => t
  | .configure t _ _ => t
  | .readFaults t _ _ => t
  | .readSession t _ _ => t
  | .ackSession t _ _ => t
  | .readTrace t _ _ => t
  | .setTarget t _ _ => t
  | .readPeers t _ _ => t
  | .openSession t _ _ => t
  | .closeSession t _ _ => t
  | .measureNow t _ _ => t
  | .calibrateMeter t _ _ => t
  | .clearFault t _ _ => t
  | .powerOnReset t => t
  | .announceArrival t _ _ => t
  | .epochArrival t _ _ _ => t
  | .findingArrival t _ _ _ _ _ => t
  | .claimArrival t _ _ _ => t
  | .leaveArrival t _ => t
  | .receiveDiscard t _ _ => t
  | .attemptStart t => t.moment
  | .announceSent t => t
  | .epochSent t => t
  | .findingSent t => t
  | .claimSent t => t
  | .leaveSent t => t
  | .attemptFailed t => t
  | .backoffEnd t => t
  | .staleThreshold t _ => t
  | .removalThreshold t _ => t
  | .unlistedPeerTimerExpiry t => t
  | .holdTimerExpiry t => t
  | .announceTimerExpiry t => t
  | .listenWindowExpiry t => t
  | .staggerTimerExpiry t => t
  | .idleTimerExpiry t => t
  | .epochTimerExpiry t => t
  | .lossDeadline t => t
  | .claimWindowExpiry t => t
  | .doseLimit t _ => t
  | .cycleSample t _ _ => t
  | .halfEnd t _ _ => t
  | .meterSample t _ => t
  | .intervalEnd t _ => t
  | .busPresent t _ => t
  | .busLost t _ => t
  | .overdraw t _ => t
  | .temperatureConversion t _ _ => t
  | .converterFaultInput t _ => t

/-- The same command at another moment. -/
def Instr.atMoment (m : Nat) (i : Instr) : Instr :=
  match i with
  | .transaction _ clocked => .transaction m clocked
  | .nop _ => .nop m
  | .unknownCode _ bytes => .unknownCode m bytes
  | .readStatus _ tag params => .readStatus m tag params
  | .readTrim _ tag params => .readTrim m tag params
  | .softReset _ tag params => .softReset m tag params
  | .configure _ tag params => .configure m tag params
  | .readFaults _ tag params => .readFaults m tag params
  | .readSession _ tag params => .readSession m tag params
  | .ackSession _ tag params => .ackSession m tag params
  | .readTrace _ tag params => .readTrace m tag params
  | .setTarget _ tag params => .setTarget m tag params
  | .readPeers _ tag params => .readPeers m tag params
  | .openSession _ tag params => .openSession m tag params
  | .closeSession _ tag params => .closeSession m tag params
  | .measureNow _ tag params => .measureNow m tag params
  | .calibrateMeter _ tag params => .calibrateMeter m tag params
  | .clearFault _ tag params => .clearFault m tag params
  | .powerOnReset _ => .powerOnReset m
  | .announceArrival _ h f => .announceArrival m h f
  | .epochArrival _ h epoch half => .epochArrival m h epoch half
  | .findingArrival _ h epoch result r v => .findingArrival m h epoch result r v
  | .claimArrival _ h epoch rb => .claimArrival m h epoch rb
  | .leaveArrival _ h => .leaveArrival m h
  | .receiveDiscard _ begun bits => .receiveDiscard m begun bits
  | .attemptStart t => .attemptStart { t with moment := m }
  | .announceSent _ => .announceSent m
  | .epochSent _ => .epochSent m
  | .findingSent _ => .findingSent m
  | .claimSent _ => .claimSent m
  | .leaveSent _ => .leaveSent m
  | .attemptFailed _ => .attemptFailed m
  | .backoffEnd _ => .backoffEnd m
  | .staleThreshold _ code => .staleThreshold m code
  | .removalThreshold _ code => .removalThreshold m code
  | .unlistedPeerTimerExpiry _ => .unlistedPeerTimerExpiry m
  | .holdTimerExpiry _ => .holdTimerExpiry m
  | .announceTimerExpiry _ => .announceTimerExpiry m
  | .listenWindowExpiry _ => .listenWindowExpiry m
  | .staggerTimerExpiry _ => .staggerTimerExpiry m
  | .idleTimerExpiry _ => .idleTimerExpiry m
  | .epochTimerExpiry _ => .epochTimerExpiry m
  | .lossDeadline _ => .lossDeadline m
  | .claimWindowExpiry _ => .claimWindowExpiry m
  | .doseLimit _ zone => .doseLimit m zone
  | .cycleSample _ u ib => .cycleSample m u ib
  | .halfEnd _ u ib => .halfEnd m u ib
  | .meterSample _ x => .meterSample m x
  | .intervalEnd _ x => .intervalEnd m x
  | .busPresent _ x => .busPresent m x
  | .busLost _ x => .busLost m x
  | .overdraw _ x => .overdraw m x
  | .temperatureConversion _ zone c => .temperatureConversion m zone c
  | .converterFaultInput _ asserted => .converterFaultInput m asserted

end Sys2Proof
end

