-- ==== Sys2Proof/Certificates/Slice0/Obligations.lean ====
section
/-! DEFINITION. The statements about the model: its queue and time, its invariants, the frames on the line, the rules of the blocks, and for every command where it completes and with what. -/

open Sys2Proof Sys2Proof.Machine

/-! ## Queue, time, frames over all commands -/

/-- A step runs the command at the front of the queue on the state with the queue's rest. The queue is the model's own: log 1. -/
def Obligations.StepRunsFront : Prop :=
  ∀ (c : Instr) (rest : List Instr) (s : State), s.pending = c :: rest → step s = exec c { s with pending := rest }

/-- No command touches the queue: its effect is on everything but the queue (log 1). -/
def Obligations.ExecKeepsQueue : Prop :=
  ∀ (c : Instr) (s t : State), exec c s = .next t → t.pending = s.pending

/-- Time and the idle block. What time alone changes (R1, R9, R10, R77, R158): the silence of every peer entry grows by the time
passed, to at most 6 T_a, the heating time of every HEATING zone grows by it, to at most the dose limit, and that of another
zone stays; the station clock runs once it is set, in whole seconds, and stops at 4294967295; nothing else changes but the
present moment. A command at a moment to come acts as the same command at the present moment of the state to which time has
passed, and a moment already passed is the present one. On an empty queue the step takes an event of the block's own that is due
(`OwnEventDue`: a threshold of silence or dose, a timer, a deadline or a backoff run out), and where none is due it lets one
microsecond pass. That a command carries its moment is the model's choice, log 2, and so is what an empty queue does, log 3;
that silence and heating time stop at their thresholds is its reading, log 14, and that the clock counts whole seconds from
CONFIGURE log 28. -/
def Obligations.TimeAndIdleSteps : Prop :=
  (∀ (c : Instr) (s : State),
    exec c s = exec (c.atMoment (elapse c.moment s).now) (elapse c.moment s) ∧ (c.moment ≤ s.now → elapse c.moment s = s)) ∧
  (∀ (t : Nat) (s : State), (t ≤ s.now → elapse t s = s) ∧
    (s.now < t → let d := t - s.now
      elapse t s = { s with
        now := t
        ptb := { s.ptb with
          entries := s.ptb.entries.map (fun e => { e with silence := min (e.silence + d) (6 * s.cfg.ta * 1000) }) }
        htr := { s.htr with
          zones := s.htr.zones.map (fun z => if z.state = .heating then
            { z with heatTime := min (z.heatTime + d) (s.cfg.doseLimit * 1000000) } else z) }
        stc := { s.stc with clockMicros := if s.stc.clockSet then s.stc.clockMicros + d else s.stc.clockMicros } } ∧
      clock (elapse t s) =
        if s.stc.clockSet then min ((s.stc.clockMicros + d) / 1000000) 4294967295 else 0)) ∧
  ∀ s : State, s.pending = [] →
    (∀ c, dueCommand s = some c → OwnEventDue s c ∧ step s = exec c s) ∧
      (dueCommand s = none → (∀ c, ¬ OwnEventDue s c) ∧ step s = .next (elapse (s.now + 1) s))

/-- The Trim Store is read at power-on only (R179): every other command leaves its constants, the values in use and the valid
mark. -/
def Obligations.TrimReadAtPowerOnOnly : Prop :=
  ∀ (c : Instr) (s t : State), exec c s = .next t → (∀ m, c ≠ .powerOnReset m) → t.trm = s.trm

/-- The lifetime counter never decreases and the next session number never decreases, whatever the command, resets included (R128,
R133). -/
def Obligations.RetainedCountsNeverFall : Prop :=
  ∀ (c : Instr) (s t : State), exec c s = .next t → s.mtr.lifetime ≤ t.mtr.lifetime ∧ s.ses.nextNumber ≤ t.ses.nextNumber

/-- The settings change at CONFIGURE, at the two resets, and at a raw transfer whose code is that of CONFIGURE or SOFT RESET: no
other command changes them, a raw transfer with any other code included (R158, R169, R171). -/
def Obligations.SettingsChangeAtConfigureAndReset : Prop :=
  ∀ (c : Instr) (s t : State), exec c s = .next t →
    (∀ m, c ≠ .powerOnReset m) → (∀ m g p, c ≠ .configure m g p) → (∀ m g p, c ≠ .softReset m g p) →
      (∀ m bs, c = .unknownCode m bs → bs.getD 0 0 ≠ 0x03#8 ∧ bs.getD 0 0 ≠ 0x04#8) → t.cfg = s.cfg

/-! ## Invariants -/

/-- Every step keeps the bus contactor closed in SESSION and in no other state (R157). -/
def Obligations.ContactorInvariant : Prop :=
  ∀ s t : State, ContactorSafe s → step s = .next t → ContactorSafe t

/-- Every step keeps the limit, the intent, the allowances and the setpoint at 0, and the converter off, outside SESSION. -/
def Obligations.QuietInvariant : Prop :=
  ∀ s t : State, QuietSafe s → step s = .next t → QuietSafe t

/-- Every step keeps epoch work inside SESSION and the source off outside INJECTING; with the contactor rule, the station injects
only while the bus contactor is closed (R84). -/
def Obligations.InjectionInvariant : Prop :=
  ∀ s t : State, ContactorSafe s → InjectionSafe s → step s = .next t →
    InjectionSafe t ∧ (t.ins.source ≠ .off → t.stc.contactor = true)

/-- Every step keeps the heater contactor closed under any HEATING zone, the idle timer stopped then, and both off outside
SESSION; the HEATING zones' ratings within the heater allowance, the allowances together within the draw limit and the setpoint
within the charger allowance (R46, R64, R76, R81). -/
def Obligations.HeaterInvariant : Prop :=
  ∀ s t : State, HeaterSafe s → step s = .next t → HeaterSafe t

/-- Every step keeps the log within 16 records, and within 15 while a session is open; a record is open in SESSION alone, and its
snapshot holds it; the session numbers ascend, each below the next number; and the lifetime counter, and every closing reading,
less the opening reading equals the record's six counters (R128, R136, R140). -/
def Obligations.SessionInvariant : Prop :=
  ∀ s t : State, SessionSafe s → step s = .next t → SessionSafe t

/-- Every step keeps the fault history within 12 entries, the trace within 32 and the counts at or below their tops. -/
def Obligations.RingsInvariant : Prop :=
  ∀ s t : State, RingsSafe s → step s = .next t → RingsSafe t

/-- Every step keeps the peer table within 24 entries, in strictly ascending order of code, none with the station's own code. -/
def Obligations.TableInvariant : Prop :=
  ∀ s t : State, TableSafe s → step s = .next t → TableSafe t

/-- Every step keeps the draw limit within the intent, the intent the grant of the record, the record past START the one that F,
the margin, the table, the own demand, the weight and the session give as they stand (R20, R30, R31, R62), and F the least feeder
limit heard: what the station may draw, where it is above 0, and its peers' reserved amounts together stay within the available
current (R14, R36, R42). The premise is a table in which no code stands twice, the invariant of `TableInvariant`: a refresh then
meets the one entry of its code, and whether that was STALE decides the grant (R1, R6). -/
def Obligations.LimitInvariant : Prop :=
  ∀ s t : State, TableSafe s → LimitSafe s → step s = .next t → LimitSafe t

/-- All the invariants hold of the machine right after reset. -/
def Obligations.ResetIsSafe : Prop :=
  ContactorSafe State.reset ∧ QuietSafe State.reset ∧ InjectionSafe State.reset ∧ HeaterSafe State.reset ∧
    SessionSafe State.reset ∧ RingsSafe State.reset ∧ TableSafe State.reset ∧ LimitSafe State.reset

/-- What reset leaves: START, the contactor open, the clock unset, an empty table and transmit queue, the grant record at 0 with
NO_SESSION, the zones WARM with no reading, and STATE_CHANGED alone pending. That this is a part at its first power-on is the
model's reading, log 24. -/
def Obligations.ResetValues : Prop :=
  let s := State.reset
  s.stc.op = .start ∧ s.stc.contactor = false ∧ s.stc.clockSet = false ∧ clock s = 0 ∧ s.ptb.entries = [] ∧
    s.ptb.feeder = 0 ∧ s.dli.queue = TxQueue.empty ∧ s.dli.attempt = none ∧ s.dli.dropKind = none ∧
    s.shu.record = { available := 0, frozen := 0, pool := 0, own := 0, balance := 0, grant := 0, zeroCause := .noSession } ∧
    (∀ z, s.htr.zones.get z = { state := .warm, temp := none, heatTime := 0, outCause := none }) ∧
    s.ins.epochState = .idle ∧ s.epi.state = .normal ∧ s.mtr.latest = none ∧ s.mtr.presence = .absent ∧
    s.vlk.slot = none ∧ s.vlk.inProgress = none ∧
    s.vlk.marks = { fault := false, sessionClosed := false, stateChanged := true, traceFrozen := false,
                    frameDropped := false }

/-! ## Frames on the line and numbers in bytes -/

/-- A frame whose fields fit their bytes and whose header passes is read back from its bits on the line as it was sent: the
layout, the stuffing and the check value are undone whole (R144, R145, R154, R180). -/
def Obligations.FrameReadBack : Prop :=
  ∀ (f : Frame) (depot : Nat), headerOk depot f.code f.depot = true → f.depot ≤ 255 →
    (match f.payload with
      | .announce x => x.fits = true
      | .epoch n half => n ≤ 255 ∧ half ≤ 65535
      | .finding n result r v => n ≤ 255 ∧ result ≤ 255 ∧ r ≤ 65535 ∧ v ≤ 65535
      | .claim n rb => n ≤ 255 ∧ rb ≤ 65535
      | .leave => True) →
      readFrame depot f.lineBits = some f

/-- Stuffing keeps every run of recessive bits within 8, and a receiver that removes the stuff bits gets the bits back, for which
it needs the stuffed bits whole: no stuff bit follows the last bit (R144). -/
def Obligations.StuffingUndone : Prop :=
  ∀ bits : List Bool,
    unstuff bits.length 0 (stuff 0 bits) = some bits ∧ ¬ List.replicate 9 true <:+: stuff 0 bits ∧
      ∀ n, n < (stuff 0 bits).length → unstuff bits.length 0 ((stuff 0 bits).take n) = none

/-- What the framer hands on has the station's own depot code, a station code of 1 to 63, and a check value that agrees over the
header and payload received (R154). -/
def Obligations.FramerHandsOnSoundFrames : Prop :=
  ∀ (depot : Nat) (line : List Bool) (f : Frame), readFrame depot line = some f →
    f.depot = depot ∧ 1 ≤ f.code ∧ f.code ≤ 63 ∧
      ∃ bits, line = false :: bits ∧ ∃ all, unstuff (8 * f.payload.kind.length) 0 bits = some all ∧
        fieldAt (bitsBytes f.payload.kind.length all) (f.payload.kind.length - 2) 2 =
          (crc16 ((bitsBytes f.payload.kind.length all).take (f.payload.kind.length - 2))).toNat

/-! ## Rules of the blocks' arithmetic -/

/-- The available current (R21). -/
def Obligations.AvailableCurrent : Prop :=
  ∀ i : GrantInputs, i.feeder ≤ 40000 → i.margin ≤ 1000 →
    (computeGrant i).available = i.feeder * (1000 - i.margin) / 1000 ∧
      i.feeder * (1000 - i.margin) ≤ 40000000 ∧ (computeGrant i).available ≤ 40000 ∧
      (i.feeder = 0 → (computeGrant i).available = 0) ∧
      (100 ≤ i.feeder → i.margin ≤ 200 → 80 ≤ (computeGrant i).available)

/-- The water-fill (R24 to R27): the grants sum to at most the pool, each is at most the participant's demand, and where all
demands fit the pool every participant has its demand. Where they do not, the pass takes every participant once, by demand per
weight ascending and then by code, and gives each the smaller of its demand and its fair part: what is left of the pool, times its
weight, divided by the weights not yet served, rounded down. -/
def Obligations.WaterFillWithinPool : Prop :=
  ∀ (pool : Nat) (ps : List Participant), (∀ p ∈ ps, 1 ≤ p.weight) →
    ((waterFill pool ps).map Prod.snd).sum ≤ pool ∧
      (∀ x ∈ waterFill pool ps, x.2 ≤ x.1.demand) ∧
      ((ps.map Participant.demand).sum ≤ pool → waterFill pool ps = ps.map (fun p => (p, p.demand))) ∧
      (pool < (ps.map Participant.demand).sum →
        let served := waterFill pool ps
        (served.map Prod.fst).Perm ps ∧
          (served.map Prod.fst).Pairwise (fun p q => p.demand * q.weight < q.demand * p.weight ∨
            p.demand * q.weight = q.demand * p.weight ∧ p.code ≤ q.code) ∧
          ∀ (n : Nat) (p : Participant) (g : Nat), served[n]? = some (p, g) →
            g = min p.demand ((pool - ((served.take n).map Prod.snd).sum) * p.weight /
              ((served.drop n).map (fun x => x.1.weight)).sum))

/-- The grant never takes the feeder beyond what is available: with a session and no unlisted peer G is the smaller of g and the
part of B above 0, so own grant and the peers' reserved amounts together stay within A; without a session, or outside SESSION, G
is 0 with NO_SESSION, and with a session while the unlisted-peer timer runs 0 with UNLISTED (R28, R29). S is the sum of the STALE
entries' reserved amounts (R22), A1 is A less S, or 0 (R23), and g is the station's own share of the water-fill of A1 over itself,
with its own demand and weight, and the FRESH entries, with those heard (R23, R27). -/
def Obligations.GrantWithinReserve : Prop :=
  (∀ i : GrantInputs, let r := computeGrant i
    let frozen := ((i.entries.filter (fun e => decide (e.freshness = .stale))).map
      (fun e => max e.share.limit e.share.intent)).sum
    let own : Participant := { own := true, code := i.code, demand := i.demand, weight := i.weight }
    let fresh := (i.entries.filter (fun e => decide (e.freshness = .fresh))).map (fun e =>
      ({ own := false, code := e.code, demand := e.share.demand, weight := e.share.weight } : Participant))
    r.frozen = frozen ∧ r.pool = (if frozen ≤ r.available then r.available - frozen else 0) ∧
      (own, r.own) ∈ waterFill r.pool (own :: fresh) ∧ r.own ≤ i.demand ∧ r.own ≤ r.pool ∧
      (i.inSession = false → r.grant = 0 ∧ r.zeroCause = .noSession) ∧
      (i.inSession = true → i.unlisted = true → r.grant = 0 ∧ r.zeroCause = .unlisted) ∧
      (i.inSession = true → i.unlisted = false → r.grant = min r.own r.balance.toNat ∧ r.zeroCause = .none) ∧
      r.balance = (r.available : Int) - ((i.entries.map (fun e => max e.share.limit e.share.intent)).sum : Int) ∧
      (r.grant = 0 ∨ r.grant + (i.entries.map (fun e => max e.share.limit e.share.intent)).sum ≤ r.available)) ∧
  ∀ s : State, let r := computeGrant s.grantInputs
    (s.stc.op ≠ .session ∨ s.ses.openRecord = none → r.grant = 0 ∧ r.zeroCause = .noSession) ∧
      (s.stc.op = .session → s.ses.openRecord ≠ none → s.ptb.unlisted ≠ none → r.grant = 0 ∧ r.zeroCause = .unlisted)

/-- The split (R63, R64): the order by T_min against T_permit, the first load served up to its demand, the second from what is
left, so that the allowances never exceed the draw limit. -/
def Obligations.SplitWithinLimit : Prop :=
  ∀ (tPermit : Int) (limit : Nat) (d : Dmu),
    let e := d.split tPermit limit
    (e.order = .heaterFirst ↔ d.tMin = none ∨ ∃ t, d.tMin = some t ∧ t < tPermit) ∧
      (e.order = .heaterFirst →
        e.heaterAllow = min d.heaterDemand limit ∧ e.chargerAllow = min d.chargerDemand (limit - e.heaterAllow)) ∧
      (e.order = .chargerFirst →
        e.chargerAllow = min d.chargerDemand limit ∧ e.heaterAllow = min d.heaterDemand (limit - e.chargerAllow)) ∧
      e.chargerAllow + e.heaterAllow ≤ limit

/-- The split order (R63): a function of T_min and T_permit alone, with no memory of the order before; with all zones OUT it is
HEATER_FIRST, the heater demand is 0 and the charger receives whatever of L the charger demand can use. -/
def Obligations.SplitOrder : Prop :=
  (∀ (tPermit : Int) (limit : Nat) (d : Dmu),
    (d.split tPermit limit).order =
      match d.tMin with
      | none => .heaterFirst
      | some t => if t < tPermit then .heaterFirst else .chargerFirst) ∧
  ∀ (cfg : Settings) (zones : Quad Zone) (limit : Nat) (d : Dmu), (∀ z, (zones.get z).state = .out) →
    (d.refresh cfg zones).tMin = none ∧ (d.refresh cfg zones).heaterDemand = 0 ∧
      ((d.refresh cfg zones).split cfg.tPermit limit).order = .heaterFirst ∧
      ((d.refresh cfg zones).split cfg.tPermit limit).chargerAllow = min (d.refresh cfg zones).chargerDemand limit

/-- The bus and branch estimates lie in 0 to 50000 kilohm, read 0 and 50000 where the rules say, and two that agree within a tenth
are accepted with their mean, rounded down (R91, R92, R93). -/
def Obligations.EstimatesInRange : Prop :=
  (∀ (ui rc : Nat) (du : Int), busEstimate ui rc du ≤ 50000 ∧ (du ≤ 0 → busEstimate ui rc du = 0) ∧
    (0 < du → 2 * (ui : Int) ≤ du → busEstimate ui rc du = 50000) ∧
    (0 < du → du < 2 * (ui : Int) →
      (busEstimate ui rc du : Int) = min 50000 ((rc : Int) * du / (2 * (ui : Int) - du) / 1000))) ∧
  (∀ du di : Int, branchEstimate du di ≤ 50000 ∧ (di < 2 → branchEstimate du di = 50000) ∧
    (2 ≤ di → du ≤ 0 → branchEstimate du di = 0) ∧
    (2 ≤ di → 0 < du → (branchEstimate du di : Int) = min 50000 (du / di))) ∧
  ∀ a b : Nat,
    (trackStep (some a) (some b) = .accepted ((a + b) / 2) ↔ 10 * (max a b - min a b) ≤ max a b) ∧
      trackStep none (some b) = .held (some b) ∧ trackStep (some a) none = .held none

/-! ## The vehicle link -/

/-- A transaction shifts out the status byte, then the record if one waits; the slot is emptied when its last byte is out, a
record not wholly clocked stays in it, an empty slot stays empty, and nothing else changes. The status byte shows BUSY, RESULT,
ATTN, HALTED, a 0 and the operating state (R170); ATTN is asserted while an event mark is pending and at no other time (R175).
That a wholly clocked slot is emptied at the falling edge is the model's choice, log 5. -/
def Obligations.TransactionShiftsOut : Prop :=
  (∀ s : State,
    (statusByte s).getLsbD 7 = s.vlk.inProgress.isSome ∧ (statusByte s).getLsbD 6 = s.vlk.slot.isSome ∧
      (statusByte s).getLsbD 5 = pinAttn s ∧ (statusByte s).getLsbD 4 = decide (s.stc.op = .halted) ∧
      (statusByte s).getLsbD 3 = false ∧ (statusByte s).toNat % 8 = s.stc.op.position ∧
      (pinAttn s = true ↔ s.vlk.marks.fault = true ∨ s.vlk.marks.sessionClosed = true ∨ s.vlk.marks.stateChanged = true ∨
        s.vlk.marks.traceFrozen = true ∨ s.vlk.marks.frameDropped = true)) ∧
  ∀ (t n : Nat) (s : State), let s0 := elapse t s
    exec (.transaction t n) s = .next { s0 with vlk := { s0.vlk with
      txn := some { status := statusByte s0, clocked := n }
      shiftedOut := shiftOut n (statusByte s0) s0.vlk.slot
      slot := slotAfter n s0.vlk.slot } } ∧
    (s0.vlk.slot = none → 1 ≤ n → shiftOut n (statusByte s0) s0.vlk.slot = statusByte s0 :: List.replicate (n - 1) 0#8) ∧
    (∀ r, s0.vlk.slot = some r → n ≤ 1 + r.bytes.length →
      shiftOut n (statusByte s0) s0.vlk.slot = (statusByte s0 :: r.bytes).take n) ∧
    (∀ r, s0.vlk.slot = some r → (1 + r.bytes.length ≤ n → slotAfter n s0.vlk.slot = none) ∧
      (n < 1 + r.bytes.length → slotAfter n s0.vlk.slot = some r)) ∧
    (s0.vlk.slot = none → slotAfter n s0.vlk.slot = none)

/-- A NOP ends the transaction, and a complete request with a code above 0Fh is refused with RANGE and no data (R171). The bytes
received are those shifted in up to the count clocked, 00h where the command lists none (the model's choice, log 12). -/
def Obligations.NopAndUnknownCode : Prop :=
  (∀ (t : Nat) (s : State), let s0 := elapse t s
    exec (.nop t) s = .next { s0 with vlk := { s0.vlk with txn := none } }) ∧
  ∀ (t : Nat) (bytes : List Byte) (x : Txn) (s : State), let s0 := elapse t s
    s0.vlk.txn = some x →
      let bs := (bytes ++ List.replicate (x.clocked - bytes.length) 0#8).take x.clocked
      3 + (bs.getD 2 0).toNat ≤ x.clocked → 15 < (bs.getD 0 0).toNat → busyBit x.status = false → s0.vlk.slot = none →
        exec (.unknownCode t bytes) s = .next { s0 with vlk := { s0.vlk with
          txn := none
          slot := some { tag := bs.getD 1 0, code := bs.getD 0 0, result := .range, clampMask := 0, data := [] } } }

/-- A request is discarded without a trace when it was cut short, when BUSY was shown and it is not SOFT RESET, or when the slot
still holds a record: only the transaction ends (R171). So is a raw transfer, whatever its code, and one with the code of NOP has
no action. That a request needs a transaction in hand is the model's choice, log 5, and what a raw transfer is taken to have
received is log 12. -/
def Obligations.RequestDiscarded : Prop :=
  (∀ q ∈ requests, ∀ (t : Nat) (tag : Byte) (params : List Byte) (x : Txn) (s : State), let s0 := elapse t s
    s0.vlk.txn = some x →
      (x.clocked < 3 + params.length ∨ (busyBit x.status = true ∧ q.1 ≠ 0x03#8) ∨ s0.vlk.slot ≠ none) →
        exec (q.2 t tag params) s = .next { s0 with vlk := { s0.vlk with txn := none } }) ∧
  ∀ (t : Nat) (bytes : List Byte) (x : Txn) (s : State), let s0 := elapse t s
    s0.vlk.txn = some x →
      let bs := (bytes ++ List.replicate (x.clocked - bytes.length) 0#8).take x.clocked
      (x.clocked < 3 + (bs.getD 2 0).toNat ∨ bs.getD 0 0 = 0#8 ∨ (busyBit x.status = true ∧ bs.getD 0 0 ≠ 0x03#8) ∨
        s0.vlk.slot ≠ none) →
        exec (.unknownCode t bytes) s = .next { s0 with vlk := { s0.vlk with txn := none } }

/-- A request not served in the operating state is refused with NOT_NOW, by the table of R173, and one served with the wrong
number of parameter bytes with RANGE, by the lengths of R182; with no data and nothing else changed (R171). -/
def Obligations.RequestRefused : Prop :=
  ∀ q ∈ requests, ∀ (t : Nat) (tag : Byte) (params : List Byte) (s : State), let s0 := elapse t s
    RequestReady params s0 →
      (∀ ops, (q.1, ops) ∈ servedStates → s0.stc.op ∉ ops →
        exec (q.2 t tag params) s = .next { s0 with vlk := { s0.vlk with
          txn := none
          slot := some { tag := tag, code := q.1, result := .notNow, clampMask := 0, data := [] } } }) ∧
      (∀ ops n, (q.1, ops) ∈ servedStates → s0.stc.op ∈ ops → (q.1, n) ∈ requestLengths → params.length ≠ n →
        exec (q.2 t tag params) s = .next { s0 with vlk := { s0.vlk with
          txn := none
          slot := some { tag := tag, code := q.1, result := .range, clampMask := 0, data := [] } } })

/-- READ STATUS returns the ten sections as they stand and clears the five pending marks; nothing else changes (R175, R176). The
order and coding of fields that R176 leaves to the owning rules is the model's reading, log 20; how a resistance field reads
that is UNSETTLED, held or accepted is log 7, and that a moment more than 4294967295 ms past reads as the low 32 bits of its
milliseconds is the model's choice, log 41; that a queued ANNOUNCE has a count field, which reads absent, is its choice, log 45.
That READ STATUS returns the latest sample's currents after the gains is the model's choice, log 47. -/
def Obligations.ReadStatusAnswers : Prop :=
  ∀ (t : Nat) (tag : Byte) (s : State), let s0 := elapse t s
    RequestReady [] s0 →
      exec (.readStatus t tag []) s = .next { s0 with vlk := { s0.vlk with
        txn := none
        marks := Marks.none
        slot := some { tag := tag, code := 0x01#8, result := .done, clampMask := 0,
                       data := s0.vlk.marks.report ++ s0.stc.report s0.now ++ s0.shu.record.report ++ s0.shu.report s0.now
                         ++ s0.dmu.report s0.cfg ++ s0.htr.report s0.now ++ s0.ins.report s0.now ++ s0.epi.report s0.now
                         ++ s0.mtr.report ++ s0.dli.report s0.stc.op } } }

/-- READ TRIM, READ FAULTS and READ PEERS (in LISTENING, LINKED and SESSION) return their data and change nothing but the slot
(R18, R166, R179). The order and coding of fields that the rules leave open is the model's reading, logs 9 and 20. -/
def Obligations.PureReadsAnswer : Prop :=
  ∀ (t : Nat) (tag : Byte) (s : State), let s0 := elapse t s
    RequestReady [] s0 →
      exec (.readTrim t tag []) s = .next { s0 with vlk := { s0.vlk with
        txn := none
        slot := some { tag := tag, code := 0x02#8, result := .done, clampMask := 0,
                       data := word s0.trm.inUse.ui ++ word s0.trm.inUse.rc ++ word s0.trm.inUse.branchGain
                         ++ word s0.trm.inUse.totalGain ++ word s0.trm.inUse.heaterGain ++ wordMark s0.trm.valid } } } ∧
      exec (.readFaults t tag []) s = .next { s0 with vlk := { s0.vlk with
        txn := none
        slot := some { tag := tag, code := 0x05#8, result := .done, clampMask := 0, data := faultsData s0 } } } ∧
      (s0.stc.op = .listening ∨ s0.stc.op = .linked ∨ s0.stc.op = .session →
        exec (.readPeers t tag []) s = .next { s0 with vlk := { s0.vlk with
          txn := none
          slot := some { tag := tag, code := 0x0A#8, result := .done, clampMask := 0,
                         data := word s0.ptb.entries.length ++ word s0.ptb.feeder ++ wordMark s0.ptb.unlisted.isSome
                           ++ s0.ptb.entries.flatMap PeerEntry.report } } })

/-- READ TRACE returns the count, the frozen mark, the missed count and the entries as they stand, and clears the mark and the
count; the entries stay (R116). The order and coding of the reply are the model's reading, logs 7 and 20. -/
def Obligations.ReadTraceAnswers : Prop :=
  ∀ (t : Nat) (tag : Byte) (s : State), let s0 := elapse t s
    RequestReady [] s0 →
      exec (.readTrace t tag []) s = .next { s0 with
        trc := { entries := s0.trc.entries, frozen := false, missed := 0 }
        vlk := { s0.vlk with
          txn := none
          slot := some { tag := tag, code := 0x08#8, result := .done, clampMask := 0,
                         data := word s0.trc.entries.length ++ wordMark s0.trc.frozen ++ word s0.trc.missed
                           ++ s0.trc.entries.flatMap TraceEntry.report } } }

/-- READ SESSION by its selector (R142): a record of the log by index, the snapshot of the open session, NO_RECORD, or RANGE; in
every state, and nothing but the slot changes. That the record comes first and the number of records after it is the model's
reading, log 20. -/
def Obligations.ReadSessionAnswers : Prop :=
  ∀ (t : Nat) (tag sel : Byte) (s : State), let s0 := elapse t s
    RequestReady [sel] s0 →
      let answered := fun (res : Result) (data : List Byte) =>
        Host.Outcome.next (φ := Fault) (ρ := Refusal) { s0 with vlk := { s0.vlk with
          txn := none, slot := some { tag := tag, code := 0x06#8, result := res, clampMask := 0, data := data } } }
      (∀ c, sel.toNat ≤ 15 → s0.ses.log[sel.toNat]? = some c →
        exec (.readSession t tag [sel]) s = answered .done (c.bytes ++ word s0.ses.log.length)) ∧
      (sel.toNat ≤ 15 → s0.ses.log.length ≤ sel.toNat →
        exec (.readSession t tag [sel]) s = answered .noRecord (word s0.ses.log.length)) ∧
      (∀ o p, sel = 255#8 → s0.ses.openRecord = some o → s0.ses.snapshot = some p →
        exec (.readSession t tag [sel]) s = answered .done (p.bytes ++ word s0.ses.log.length)) ∧
      (sel = 255#8 → s0.ses.openRecord = none →
        exec (.readSession t tag [sel]) s = answered .noRecord (word s0.ses.log.length)) ∧
      (15 < sel.toNat → sel ≠ 255#8 → exec (.readSession t tag [sel]) s = answered .range [])

/-- ACK SESSION (R141), in every operating state: the oldest record is removed when it is named; ORDER when another record of the
log is named and NO_RECORD when none is; the data is the number of records left. -/
def Obligations.AckSessionAnswers : Prop :=
  ∀ (t : Nat) (tag : Byte) (params : List Byte) (s : State), let s0 := elapse t s
    RequestReady params s0 → params.length = 4 →
      let n := ofBytes params
      let answered := fun (log : List ClosedRecord) (res : Result) =>
        Host.Outcome.next (φ := Fault) (ρ := Refusal) { s0 with
          ses := { s0.ses with log := log }
          vlk := { s0.vlk with
            txn := none
            slot := some { tag := tag, code := 0x07#8, result := res, clampMask := 0, data := word log.length } } }
      (∀ c cs, s0.ses.log = c :: cs → c.record.number = n → exec (.ackSession t tag params) s = answered cs .done) ∧
      (∀ c cs, s0.ses.log = c :: cs → c.record.number ≠ n → (∃ x ∈ cs, x.record.number = n) →
        exec (.ackSession t tag params) s = answered s0.ses.log .order) ∧
      ((∀ x ∈ s0.ses.log, x.record.number ≠ n) → exec (.ackSession t tag params) s = answered s0.ses.log .noRecord)

/-- CONFIGURE in START (R158, R177, R178): refused with RANGE where the station code is 0 or above 63, the depot code or the
feeder limit 0, or the zone order, unless its default is asked for, no permutation, with nothing but the slot changed; otherwise
accepted: it settles every field by its default, its range and the cross-clamps, sets the clock, seeds the line sequence, sets F,
begins the meter's samples, and enters READY with an empty table (R17), the presence ABSENT, a grant of 0 and NO_SESSION; DONE
carries the clamp mask and no data. -/
def Obligations.ConfigureAnswers : Prop :=
  ∀ (t : Nat) (tag : Byte) (params : List Byte) (s : State), let s0 := elapse t s
    RequestReady params s0 → s0.stc.op = .start → params.length = 91 →
      let order := ((params.drop 57).take 4).map BitVec.toNat
      let refused := fieldAt params 4 1 = 0 ∨ 63 < fieldAt params 4 1 ∨ fieldAt params 5 1 = 0 ∨ fieldAt params 6 2 = 0 ∨
        (fieldAt params 0 4).testBit 13 = false ∧ ¬ order.Perm [1, 2, 3, 4]
      (refused →
        exec (.configure t tag params) s = .next { s0 with vlk := { s0.vlk with
          txn := none, slot := some { tag := tag, code := 0x04#8, result := .range, clampMask := 0, data := [] } } }) ∧
      (¬ refused → ∃ r clamp, exec (.configure t tag params) s = .next r ∧
        BlockSettled params r.cfg clamp ∧ r.stc.op = .ready ∧ r.stc.clockSet = true ∧
        r.stc.clockMicros = fieldAt params 87 4 * 1000000 ∧
        r.dli.sequence = BitVec.ofNat 16 (fieldAt params 4 1 * 257) ∧
        r.ptb = { entries := [], unlisted := none, feeder := r.cfg.feederLimit, mismatch := false } ∧
        r.mtr.periodEnd = some (s0.now + 250000) ∧ r.mtr.presence = .absent ∧ r.mtr.run = 0 ∧ r.htr.cycleStart = none ∧
        r.shu.record.grant = 0 ∧ r.shu.record.zeroCause = .noSession ∧ r.vlk.marks.stateChanged = true ∧
        r.vlk.slot = some { tag := tag, code := 0x04#8, result := .done, clampMask := clamp, data := [] } ∧
        r.vlk.txn = none ∧ r.stc.contactor = s0.stc.contactor ∧ r.ses = s0.ses ∧
        r.flt = s0.flt ∧ r.trc = s0.trc ∧ r.ins = s0.ins ∧ r.epi = s0.epi ∧ r.trm = s0.trm ∧
        r.mtr.lifetime = s0.mtr.lifetime ∧ r.mtr.offset = s0.mtr.offset ∧ r.dmu.weight = s0.dmu.weight ∧
        r.dmu.target = s0.dmu.target ∧ r.now = s0.now ∧ r.pending = s0.pending)

/-- SET TARGET stores the clamped energy and the departure time, re-evaluates target met, the demands and the weight, passes on a
change of own demand or weight to the grant, limit and intent, and the split (R30, R31, R37, R65), and answers DONE with the
weight and the own demand and the clamp shown in bit 0 (R54, R172). That the delivered energy is the sum of R55 whole, beyond the
range that R53 gives it too, is the model's choice, log 36. -/
def Obligations.SetTargetAnswers : Prop :=
  ∀ (t : Nat) (tag : Byte) (params : List Byte) (s : State), let s0 := elapse t s
    RequestReady params s0 → s0.stc.op ≠ .start → params.length = 8 →
      let energy := fieldAt params 0 4
      let target := min energy 200000
      let delivered := deliveredOf s0.ses.openRecord
      let met := targetMetOf target delivered
      let charge := chargerDemandOf s0.cfg target met (bandOf (tMinOf s0.htr.zones))
      ∃ r, exec (.setTarget t tag params) s = .next r ∧
        r.dmu.target = target ∧ r.dmu.departure = fieldAt params 4 4 ∧ r.dmu.delivered = delivered ∧ r.dmu.targetMet = met ∧
        r.dmu.chargerDemand = charge ∧ r.dmu.ownDemand = min s0.cfg.ist (charge + ratedSum Zone.asks s0.htr.zones s0.cfg.ratings) ∧
        r.dmu.weight = weightOf s0.cfg.irating target delivered met (fieldAt params 4 4) (clock s0)
          (weightVoltage s0.cfg s0.mtr.latest) ∧
        r.vlk.slot = some { tag := tag, code := 0x09#8, result := .done, clampMask := if 200000 < energy then 1 else 0,
                            data := word r.dmu.weight ++ word r.dmu.ownDemand } ∧
        DemandSettled (FiguresMoved s0 r) s0 r ∧
        r.vlk.txn = none ∧ r.vlk.marks = s0.vlk.marks ∧ r.cfg = s0.cfg ∧ r.ptb = s0.ptb ∧ r.ins = s0.ins ∧ r.epi = s0.epi ∧
        r.trc = s0.trc ∧ r.mtr = s0.mtr ∧ r.ses = s0.ses ∧ r.stc = s0.stc ∧ r.flt = s0.flt ∧ r.trm = s0.trm ∧
        r.now = s0.now ∧ r.pending = s0.pending

/-- OPEN SESSION in LINKED (R134, R135): refused with LOG_FULL and then with INSULATION with nothing else changed; otherwise the
record, its snapshot and the raised number are written, the station enters SESSION with its contactor closed, the first interval,
its band decided by the depot load (R129), and the slot begin, the doses are 0, the demand figures and the weight are those of a
session with nothing delivered, one grant from them is taken and one split made (R31, R37, R67), the epoch timer runs to this very
moment where the bus record is absent or more than 2 E seconds old, and for its full duration otherwise (R86), and DONE carries
the number. -/
def Obligations.OpenSessionAnswers : Prop :=
  ∀ (t : Nat) (tag : Byte) (s : State), let s0 := elapse t s
    RequestReady [] s0 → s0.stc.op = .linked →
      let room := s0.ses.log.length ≤ 15 ∧ s0.ses.nextNumber < 4294967295 ∧ s0.mtr.lifetime ≤ 2 ^ 48 - 1 - 6 * 4294967295
      let blocked := s0.epi.state = .claimWait ∨ s0.epi.state = .busFault ∨ s0.epi.state = .doubleFault
      let opened := newRecord s0.ses.nextNumber s0.cfg.stationCode s0.cfg.depotCode (clock s0) s0.mtr.lifetime
      let refusedWith := fun (res : Result) =>
        Host.Outcome.next (φ := Fault) (ρ := Refusal) { s0 with vlk := { s0.vlk with
          txn := none, slot := some { tag := tag, code := 0x0B#8, result := res, clampMask := 0, data := [] } } }
      (¬ room → exec (.openSession t tag []) s = refusedWith .logFull) ∧
      (room → blocked → exec (.openSession t tag []) s = refusedWith .insulation) ∧
      (room → ¬ blocked → ∃ r, exec (.openSession t tag []) s = .next r ∧
        r.stc.op = .session ∧ r.stc.contactor = true ∧ r.ses.nextNumber = s0.ses.nextNumber + 1 ∧ r.ses.log = s0.ses.log ∧
        r.ses.openRecord = some opened ∧
        r.ses.snapshot = some { record := opened, time := clock s0, lifetime := s0.mtr.lifetime } ∧
        (let a := s0.shu.record.available
        let p := ((s0.ptb.entries.map (fun e => max e.share.limit e.share.intent)).sum + s0.shu.limit) * 1000 / a
        r.mtr.interval.band = if a = 0 then .peak else if p < s0.cfg.lowBand then .low
          else if s0.cfg.peakBand ≤ p then .peak else .normal) ∧
        r.mtr.interval.number = 1 ∧ r.mtr.interval.count = 0 ∧ r.mtr.cal = .shorted ∧ r.mtr.heldHeat = 0 ∧
        r.mtr.heldCharge = 0 ∧ r.mtr.periodEnd = some (s0.now + 250000) ∧ (∀ z, (r.htr.zones.get z).heatTime = 0) ∧
        (let old := ∀ b, s0.ins.busRecord = some b → b.time + 2 * s0.cfg.epochInterval < clock s0
        (old → r.ins.epochTimer = some s0.now) ∧
        (¬ old → r.ins.epochTimer = some (s0.now + (s0.cfg.epochInterval * 1000 + s0.cfg.stationCode * 100) * 1000))) ∧
        r.shu.enable = true ∧ r.shu.peak = 0 ∧ r.dmu.delivered = 0 ∧
        r.dmu.targetMet = targetMetOf s0.dmu.target 0 ∧
        r.dmu.chargerDemand = chargerDemandOf s0.cfg s0.dmu.target r.dmu.targetMet (bandOf (tMinOf s0.htr.zones)) ∧
        r.dmu.heaterDemand = ratedSum Zone.asks s0.htr.zones s0.cfg.ratings ∧
        r.dmu.ownDemand = min s0.cfg.ist (r.dmu.chargerDemand + r.dmu.heaterDemand) ∧
        r.dmu.weight = weightOf s0.cfg.irating s0.dmu.target 0 r.dmu.targetMet s0.dmu.departure (clock s0)
          (weightVoltage s0.cfg s0.mtr.latest) ∧
        DemandSettled True { s0 with shu := { s0.shu with
          enable := true, peak := 0, overCount := 0, overWait := false, exclusion := 0 } } r ∧
        r.vlk.marks.stateChanged = true ∧
        r.vlk.slot = some { tag := tag, code := 0x0B#8, result := .done, clampMask := 0, data := word s0.ses.nextNumber } ∧
        r.cfg = s0.cfg ∧ r.ptb = s0.ptb ∧ r.epi = s0.epi ∧ r.trc = s0.trc ∧ r.flt = s0.flt ∧ r.trm = s0.trm ∧
        r.mtr.lifetime = s0.mtr.lifetime ∧ r.mtr.offset = s0.mtr.offset ∧ r.now = s0.now ∧ r.pending = s0.pending)

/-- CLOSE SESSION in SESSION (R160, R161): the interval in progress is credited, where it holds a sample, to the two counters of
its band, as far as their tops allow, to the counts and by the same milliwatt-hours to the lifetime counter (R127, R128, R132,
R138); the record is closed with reason REQUEST and appended, the epoch work, the heater, the draw limit, the allowances and the
converter end, the contactor opens, the station is in LINKED, and DONE carries the number closed. -/
def Obligations.CloseSessionAnswers : Prop :=
  ∀ (t : Nat) (tag : Byte) (o : OpenRecord) (s : State), let s0 := elapse t s
    RequestReady [] s0 → s0.stc.op = .session → s0.ses.openRecord = some o →
      let i := s0.mtr.interval
      let heat := min (i.heatAcc / 14400) (4294967295 - o.counters.heating i.band)
      let charge := min (i.chargeAcc / 14400) (4294967295 - o.counters.charging i.band)
      let reduced := heat < i.heatAcc / 14400 ∨ charge < i.chargeAcc / 14400
      ∃ r c, exec (.closeSession t tag []) s = .next r ∧
        (i.count = 0 → c.record = { o with peak := s0.shu.peak } ∧ r.mtr.lifetime = s0.mtr.lifetime) ∧
        (i.count ≠ 0 → r.mtr.lifetime = s0.mtr.lifetime + heat + charge ∧
          c.record.counters.heating i.band = o.counters.heating i.band + heat ∧
          c.record.counters.charging i.band = o.counters.charging i.band + charge ∧
          (∀ b, b ≠ i.band → c.record.counters.heating b = o.counters.heating b ∧
            c.record.counters.charging b = o.counters.charging b) ∧
          c.record.intervalCount = min (o.intervalCount + 1) 65535 ∧
          (i.estimated = true ∨ reduced → c.record.estimatedCount = min (o.estimatedCount + 1) 65535) ∧
          (i.estimated = false → ¬ reduced → c.record.estimatedCount = o.estimatedCount) ∧
          c.record.reverseCount = (if i.reverse then min (o.reverseCount + 1) 65535 else o.reverseCount) ∧
          c.record.station = o.station ∧ c.record.depot = o.depot ∧ c.record.openTime = o.openTime ∧
          c.record.opening = o.opening) ∧
        r.stc.op = .linked ∧ r.stc.contactor = false ∧ r.ses.openRecord = none ∧ r.ses.snapshot = none ∧
        r.ses.log = s0.ses.log ++ [c] ∧ c.reason = .request ∧ c.faultCode = none ∧ c.unrecorded = false ∧
        c.closeTime = clock s0 ∧ c.closing = r.mtr.lifetime ∧ c.record.number = o.number ∧ c.record.peak = s0.shu.peak ∧
        c.check = crc16 (c.bytes.take 61) ∧
        r.mtr.interval = Interval.none ∧ r.mtr.cal = .idle ∧ r.ins.epochState = .idle ∧ r.ins.source = .off ∧
        r.ins.epochTimer = none ∧ r.dli.queue.epoch = none ∧ r.htr.contactor = false ∧ r.htr.zones.anyHeating = false ∧
        r.shu.limit = 0 ∧ r.shu.intent = 0 ∧ r.shu.setpoint = 0 ∧ r.shu.enable = false ∧ r.dmu.chargerAllow = 0 ∧
        r.dmu.heaterAllow = 0 ∧ r.vlk.marks.sessionClosed = true ∧ r.vlk.marks.stateChanged = true ∧
        r.vlk.slot = some { tag := tag, code := 0x0C#8, result := .done, clampMask := 0, data := word o.number } ∧
        r.cfg = s0.cfg ∧ r.ptb = s0.ptb ∧ r.epi = s0.epi ∧ r.trc = s0.trc ∧ r.flt = s0.flt ∧ r.trm = s0.trm ∧
        r.mtr.offset = s0.mtr.offset ∧ r.ins.busRecord = s0.ins.busRecord ∧ r.ins.branchRecord = s0.ins.branchRecord ∧
        r.ins.lastEpoch = s0.ins.lastEpoch ∧ r.now = s0.now ∧ r.pending = s0.pending

/-- MEASURE NOW in SESSION (R103, R87): in IDLE an own EPOCH is made up and queued, and DONE carries its number and T_half; in
every other epoch state NOT_NOW; the new epoch has no timing origin and no cycle yet (R85; that the origin reads absent and the
count 0 until the EPOCH is sent is the model's reading, log 17). That an epoch timer which is running runs on is the model's
choice, log 44. CALIBRATE METER in LINKED and SESSION (R122, R174): the request stays in progress, and a slot is asked for unless
one is asked for or running. -/
def Obligations.MeasureAndCalibrateTaken : Prop :=
  (∀ (t : Nat) (tag : Byte) (s : State), let s0 := elapse t s
    RequestReady [] s0 → s0.stc.op = .session →
      let n := (s0.ins.lastEpoch + 1) % 256
      let half := min 6000 (1000 + 200 * (1 + sessionPeers s0.ptb.entries))
      (s0.ins.epochState = .idle → exec (.measureNow t tag []) s = .next { s0 with
        ins := { s0.ins with epochState := .pending, epochNumber := n, lastEpoch := n, injector := s0.cfg.stationCode,
                             tHalf := half, origin := none, cycleCount := 0 }
        dli := s0.dli.queueFrame s0.stc.op .epoch (.epoch n half)
        vlk := { s0.vlk with
          txn := none
          slot := some { tag := tag, code := 0x0D#8, result := .done, clampMask := 0, data := word n ++ word half } } }) ∧
      (s0.ins.epochState ≠ .idle → exec (.measureNow t tag []) s = .next { s0 with vlk := { s0.vlk with
          txn := none, slot := some { tag := tag, code := 0x0D#8, result := .notNow, clampMask := 0, data := [] } } })) ∧
  ∀ (t : Nat) (tag : Byte) (s : State), let s0 := elapse t s
    RequestReady [] s0 → s0.stc.op = .linked ∨ s0.stc.op = .session →
      exec (.calibrateMeter t tag []) s = .next { s0 with
        mtr := { s0.mtr with cal := if s0.mtr.cal = .idle then .pending else s0.mtr.cal }
        vlk := { s0.vlk with txn := none, inProgress := some tag } }

/-- CLEAR FAULT (R113, R167): STILL_ACTIVE in HALTED with the input asserted, with nothing changed; in HALTED otherwise the
first-out is emptied, the episode is NORMAL with no claimant and the station enters READY with an empty table; in READY,
LISTENING, LINKED and SESSION the first-out is emptied, a latched episode returns to NORMAL, any other is left as it is, and the
operating state stays. That the claimant set is emptied with the return of a latched episode, and left otherwise, is the model's
reading, log 18. -/
def Obligations.ClearFaultAnswers : Prop :=
  ∀ (t : Nat) (tag : Byte) (s : State), let s0 := elapse t s
    RequestReady [] s0 → s0.stc.op ≠ .start →
      (s0.stc.op = .halted → s0.shu.faultInput = true →
        exec (.clearFault t tag []) s = .next { s0 with vlk := { s0.vlk with
          txn := none, slot := some { tag := tag, code := 0x0F#8, result := .stillActive, clampMask := 0, data := [] } } }) ∧
      (s0.stc.op = .halted ∧ s0.shu.faultInput = false ∨ s0.stc.op ≠ .halted → ∃ r,
        exec (.clearFault t tag []) s = .next r ∧ r.flt.firstOut = none ∧ r.flt.history = s0.flt.history ∧
        r.epi.onset = s0.epi.onset ∧
        r.vlk.slot = some { tag := tag, code := 0x0F#8, result := .done, clampMask := 0, data := [] } ∧
        (s0.stc.op = .halted → r.epi.state = .normal ∧ r.epi.claimants = [] ∧ r.epi.window = none) ∧
        (s0.stc.op ≠ .halted → s0.epi.state = .localFault ∨ s0.epi.state = .busFault ∨ s0.epi.state = .doubleFault →
          r.epi = { s0.epi with state := .normal, claimants := [] }) ∧
        (s0.stc.op ≠ .halted → s0.epi.state ≠ .localFault → s0.epi.state ≠ .busFault → s0.epi.state ≠ .doubleFault →
          r.epi = s0.epi) ∧
        MarksAgree r ∧
        (s0.stc.op = .halted → r.stc.op = .ready ∧ r.ptb.entries = [] ∧ r.mtr.presence = .absent ∧ r.mtr.run = 0 ∧
          r.htr.cycleStart = none ∧ r.dli.queue.leave = s0.dli.queue.leave ∧ r.dli.queue.claim = s0.dli.queue.claim) ∧
        (s0.stc.op ≠ .halted → r.stc = s0.stc ∧ r.dli = s0.dli ∧ r.mtr = s0.mtr ∧ r.shu = s0.shu ∧ r.dmu = s0.dmu ∧
          r.htr = s0.htr ∧ SameEntries r.ptb.entries s0.ptb.entries) ∧
        r.cfg = s0.cfg ∧ r.ins = s0.ins ∧ r.trc = s0.trc ∧ r.ses = s0.ses ∧ r.trm = s0.trm ∧
        r.mtr.lifetime = s0.mtr.lifetime ∧ r.now = s0.now ∧ r.pending = s0.pending)

/-- SOFT RESET in every operating state, under BUSY too (R169): an open session closes with reason RESET, the blocks take their
reset values, the retained items, the trace and the trim stay, and STATE_CHANGED is pending with SESSION_CLOSED where a session
closed; no termination record. That the fault input keeps its level is the model's reading, log 21, and that the held units are 0
is its choice, log 35. -/
def Obligations.SoftResetTaken : Prop :=
  ∀ (t : Nat) (tag : Byte) (x : Txn) (s : State), let s0 := elapse t s
    s0.vlk.txn = some x → 3 ≤ x.clocked → s0.vlk.slot = none →
      ∃ r, exec (.softReset t tag []) s = .next r ∧
        r.stc = { op := .start, contactor := false, listenWindow := none, clockSet := false, clockMicros := 0 } ∧
        r.cfg = Settings.reset ∧ r.ptb = Ptb.reset ∧ r.dmu = Dmu.reset ∧ r.htr = Htr.reset ∧ r.ins = Ins.reset ∧
        r.epi = Epi.reset ∧ r.shu = { Shu.reset with faultInput := s0.shu.faultInput } ∧ r.dli.queue = TxQueue.empty ∧
        r.dli.attempt = none ∧ r.dli.backoff = none ∧ r.dli.dropKind = none ∧ r.dli.dropCount = 0 ∧ r.dli.sequence = 0 ∧
        r.dli.announce = none ∧ r.mtr = { Mtr.reset with offset := s0.mtr.offset, lifetime := r.mtr.lifetime } ∧
        s0.mtr.lifetime ≤ r.mtr.lifetime ∧ r.trc = s0.trc ∧ r.flt = s0.flt ∧
        r.trm = s0.trm ∧ r.ses.nextNumber = s0.ses.nextNumber ∧
        (s0.stc.op ≠ .session → r.ses = s0.ses ∧ r.mtr.lifetime = s0.mtr.lifetime) ∧
        (∀ o, s0.stc.op = .session → s0.ses.openRecord = some o → ∃ c, r.ses.log = s0.ses.log ++ [c] ∧ c.reason = .reset ∧
          c.record.number = o.number ∧ c.closing = r.mtr.lifetime ∧ r.ses.openRecord = none ∧ r.ses.snapshot = none) ∧
        r.vlk.slot = none ∧ r.vlk.inProgress = none ∧ r.vlk.txn = none ∧
        r.vlk.marks = { fault := false, sessionClosed := decide (s0.stc.op = .session), stateChanged := true,
                        traceFrozen := false, frameDropped := false } ∧ r.now = s0.now ∧ r.pending = s0.pending

/-- A power-on reset in every state (R139, R168, R179): the blocks and the trace take their reset values, the retained items stay,
a snapshot found is closed with reason POWER_LOSS at its own time, and the trim is valid and in use exactly where its CRC agrees
and every constant is within its range, and nominal otherwise. The bytes the CRC covers are a free value, log 6; that the fault
input keeps its level is log 21, that the held units are 0 is the model's choice, log 35, and that the loss of power and its
return are one command is its choice, log 27. -/
def Obligations.PowerOnReset : Prop :=
  ∀ (t : Nat) (s : State), let s0 := elapse t s
    ∃ r, exec (.powerOnReset t) s = .next r ∧
      r.stc = { op := .start, contactor := false, listenWindow := none, clockSet := false, clockMicros := 0 } ∧
      r.cfg = Settings.reset ∧ r.ptb = Ptb.reset ∧ r.dmu = Dmu.reset ∧ r.htr = Htr.reset ∧ r.ins = Ins.reset ∧
      r.epi = Epi.reset ∧ r.trc = Trc.reset ∧ r.dli.queue = TxQueue.empty ∧ r.dli.attempt = none ∧
      r.dli.backoff = none ∧ r.dli.dropKind = none ∧ r.dli.dropCount = 0 ∧ r.dli.sequence = 0 ∧ r.dli.announce = none ∧
      r.shu = { Shu.reset with faultInput := s0.shu.faultInput } ∧
      r.mtr = { Mtr.reset with offset := s0.mtr.offset, lifetime := s0.mtr.lifetime } ∧ r.flt = s0.flt ∧
      r.ses.nextNumber = s0.ses.nextNumber ∧ r.ses.openRecord = none ∧ r.ses.snapshot = none ∧
      (s0.ses.snapshot = none → r.ses.log = s0.ses.log) ∧
      (∀ p, s0.ses.snapshot = some p → ∃ c, r.ses.log = s0.ses.log ++ [c] ∧ c.record = p.record ∧ c.closeTime = p.time ∧
        c.closing = s0.mtr.lifetime ∧ c.reason = .powerLoss ∧ c.faultCode = none ∧ c.unrecorded = true ∧
        c.check = crc16 (c.bytes.take 61)) ∧
      (let k := s0.trm.stored
      let gainFits := fun (g : Nat) => 9000 ≤ g ∧ g ≤ 11000
      r.trm.stored = k ∧ r.trm.storedCrc = s0.trm.storedCrc ∧
        (r.trm.valid = true ↔
          crc16 (Config.trimImage k.ui k.rc k.branchGain k.totalGain k.heaterGain) = s0.trm.storedCrc ∧
            35000 ≤ k.ui ∧ k.ui ≤ 45000 ∧ 180000 ≤ k.rc ∧ k.rc ≤ 220000 ∧ gainFits k.branchGain ∧ gainFits k.totalGain ∧
            gainFits k.heaterGain) ∧
        (r.trm.valid = true → r.trm.inUse = k) ∧
        (r.trm.valid = false → r.trm.inUse = { ui := 40000, rc := 200000, branchGain := 10000, totalGain := 10000,
                                               heaterGain := 10000 })) ∧
      r.vlk.slot = none ∧ r.vlk.inProgress = none ∧
      r.vlk.marks = { fault := false, sessionClosed := s0.ses.snapshot.isSome, stateChanged := true, traceFrozen := false,
                      frameDropped := false } ∧ r.now = s0.now ∧ r.pending = s0.pending

/-! ## Frames from the depot line -/

/-- A frame with the station's own code (R11): in LISTENING, LINKED and SESSION, CODE_CONFLICT is recorded with the code, the
station is in HALTED with LEAVE queued and nothing drawn; in READY and HALTED the fault is recorded and the state stays. The entry
goes to the end of the history, a ring of 12 that drops its oldest entry once it is full, and is the first-out only where that was
empty (R165). A station that is sending receives no frame, the identical frame of another station included (R150). When the framer
took the start bit is the model's reading, log 29; that an attempt is in progress until the command that ends it is taken, and
that the gap counts the recessive bits that end a frame, is its choice, log 22. -/
def Obligations.OwnCodeHalts : Prop :=
  ∀ (t : Nat) (h : Header) (p : Payload) (s : State), let s0 := elapse t s
    (∀ a, s0.dli.attempt = some a → exec (arrivalOf t h p) s = .next s0) ∧
    (s0.dli.attempt = none → headerOk s0.cfg.depotCode h.code h.depot = true → framerTook s0 h.begun = true →
      h.code = s0.cfg.stationCode →
      let noted := faultAdded { time := clock s0, code := .codeConflict, detail := .number h.code, state := s0.stc.op } s0.flt
      (s0.stc.op.takesFrames = true → ∃ r, exec (arrivalOf t h p) s = .next r ∧ r.stc.op = .halted ∧ r.flt = noted ∧
        r.vlk.marks.fault = true ∧ r.vlk.marks.stateChanged = true ∧ r.dli.queue.leave = some { content := .none, failed := 0 } ∧
        r.dli.announce = none ∧ r.shu.limit = 0 ∧ r.shu.intent = 0 ∧
        r.ptb.entries.map PeerEntry.code = s0.ptb.entries.map PeerEntry.code ∧ r.ptb.unlisted = s0.ptb.unlisted ∧
        r.ins.lastEpoch = s0.ins.lastEpoch ∧ r.trc = s0.trc ∧ r.cfg = s0.cfg ∧ r.trm = s0.trm ∧ r.now = s0.now ∧
        r.pending = s0.pending) ∧
      (s0.stc.op = .ready ∨ s0.stc.op = .halted → exec (arrivalOf t h p) s = .next { s0 with
        dli := { s0.dli with gapFrom := idleAfter s0.now (arrivedFrame h p).lineBits, framerFrom := s0.now + 192 }
        flt := noted, vlk := { s0.vlk with marks := { s0.vlk.marks with fault := true } } }))

/-- ANNOUNCE (R3 to R5, R12): out of range it is discarded; from a code with an entry the entry is overwritten; from another
code an entry is created while fewer than 24 stand; with 24 the unlisted-peer timer starts, with TABLE_FULL when it was not
running, and the grant is 0. Each change of the table is passed on. That the gap counts the recessive bits that end a frame is
the model's choice, log 22. That a zone whose heating ends at the dose limit otherwise than by it keeps a heating time one
microsecond short of it is the model's reading, log 14. -/
def Obligations.AnnounceArrivalTaken : Prop :=
  ∀ (t : Nat) (h : Header) (f : ShareFields) (s : State), let s0 := elapse t s
    Reaches h s0 →
      let d := { s0.dli with gapFrom := idleAfter s0.now (arrivedFrame h (.announce f)).lineBits, framerFrom := s0.now + 192 }
      let es := s0.ptb.entries
      let ends := s0.now + 6 * s0.cfg.ta * 1000
      (shareInRange f = false → exec (.announceArrival t h f) s = .next { s0 with dli := d }) ∧
      (∀ e, shareInRange f = true → findEntry h.code es = some e → ∃ r, exec (.announceArrival t h f) s = .next r ∧
        r.ptb.entries = es.map (fun x => if x.code = h.code then
          { x with share := f, freshness := .fresh, silence := 0, heard := true } else x) ∧
        r.ptb.unlisted = s0.ptb.unlisted ∧ r.epi = s0.epi ∧ TableSettled { s0 with dli := d } r) ∧
      (shareInRange f = true → findEntry h.code es = none → es.length < 24 → ∃ r,
        exec (.announceArrival t h f) s = .next r ∧
        r.ptb.entries = insertEntry { code := h.code, share := f, freshness := .fresh, silence := 0, heard := true,
                                      claimant := isMember h.code s0.epi.claimants } es ∧
        r.ptb.unlisted = s0.ptb.unlisted ∧
        r.epi = { s0.epi with claimants := markDeparted false h.code s0.epi.claimants } ∧
        TableSettled { s0 with dli := d } r) ∧
      (shareInRange f = true → findEntry h.code es = none → 24 ≤ es.length → s0.ptb.unlisted.isSome = true →
        exec (.announceArrival t h f) s = .next { s0 with dli := d, ptb := { s0.ptb with unlisted := some ends } }) ∧
      (shareInRange f = true → findEntry h.code es = none → 24 ≤ es.length → s0.ptb.unlisted = none → ∃ r,
        exec (.announceArrival t h f) s = .next r ∧ r.ptb.entries = es ∧ r.ptb.unlisted = some ends ∧
        r.shu.record.grant = 0 ∧ r.epi = s0.epi ∧
        TableSettled { s0 with
          dli := d
          flt := faultAdded { time := clock s0, code := .tableFull, detail := .number h.code, state := s0.stc.op } s0.flt
          vlk := { s0.vlk with marks := { s0.vlk.marks with fault := true } } } r)

/-- EPOCH (R6, R95, R98, R99, R100): its entry is refreshed; in range it sets the last epoch number, and in SESSION it starts
the epoch timer and, by the epoch state and the codes, makes the station observe, observe again, hold its own epoch against it,
or leaves the epoch observed as it is. The injector's own EPOCH again, of the same number, moves the origin and the loss
deadline, closes an open window and clears the branch track's held estimate; the cycle count is kept and the next cycle starts,
or, in the sixth cycle, no further one, with a track not accepted UNSETTLED, which is the model's reading, log 16. A sender that
was STALE makes a change of the table, passed on after the frame's work (log 19), and any other leaves shares, demand, faults
and F alone. That the gap counts the recessive bits that end a frame is the model's choice, log 22. That a zone whose heating
ends at the dose limit otherwise than by it keeps a heating time one microsecond short of it is the model's reading, log 14. -/
def Obligations.EpochArrivalTaken : Prop :=
  ∀ (t : Nat) (h : Header) (epoch half : Nat) (s : State), let s0 := elapse t s
    Reaches h s0 → ∃ r, exec (.epochArrival t h epoch half) s = .next r ∧
      r.ptb.entries = refreshedEntries h.code s0.ptb.entries ∧ r.ptb.unlisted = s0.ptb.unlisted ∧ r.epi = s0.epi ∧
      RestKept s0 r ∧ ZonesKept s0.cfg.doseLimit s0.htr.zones r.htr.zones ∧
      (let taken := 1200 ≤ half ∧ half ≤ 6000 ∧ s0.stc.op = .session
      let yields := taken ∧ (s0.ins.epochState = .pending ∨ s0.ins.epochState = .injecting ∧ h.code < s0.cfg.stationCode)
      let resends := taken ∧ s0.ins.epochState = .injecting ∧ s0.cfg.stationCode < h.code ∧ s0.ins.resend = false
      let queue := if yields then s0.dli.queue.set .epoch none
        else if resends then
          s0.dli.queue.set .epoch (some { content := .epoch s0.ins.epochNumber s0.ins.tHalf, failed := 0 })
        else s0.dli.queue
      RefreshSettled h.code s0.ptb.entries { s0 with
        ins := r.ins, htr := { s0.htr with window := r.htr.window }
        dli := { s0.dli with
          queue := queue, framerFrom := s0.now + 192
          gapFrom := idleAfter s0.now (arrivedFrame h (.epoch epoch half)).lineBits } } r) ∧
      (half < 1200 ∨ 6000 < half → r.ins = s0.ins ∧ r.htr.window = s0.htr.window) ∧
      (1200 ≤ half → half ≤ 6000 → s0.stc.op ≠ .session →
        r.ins = { s0.ins with lastEpoch := epoch } ∧ r.htr.window = s0.htr.window) ∧
      (1200 ≤ half → half ≤ 6000 → s0.stc.op = .session →
        let i : Ins := { s0.ins with
          lastEpoch := epoch
          epochTimer := some (s0.now + (s0.cfg.epochInterval * 1000 + s0.cfg.stationCode * 100) * 1000) }
        let observed : Ins := { i with
          epochState := .observing, epochNumber := epoch, injector := h.code, tHalf := half, origin := some s0.now
          cycleCount := 1, busTrack := none, branchTrack := .absent, resend := false
          lossDeadline := some (s0.now + (12 * half + 2 * s0.cfg.ta) * 1000)
          source := .off, halfStart := some s0.now, half := .positive, points := 0, samplesU := [], samplesI := []
          discarded := false }
        (s0.ins.epochState = .idle → r.ins = observed) ∧
        (s0.ins.epochState = .pending → r.ins = observed ∧ r.dli.queue.epoch = none) ∧
        (s0.ins.epochState = .injecting → h.code < s0.cfg.stationCode →
          r.ins = observed ∧ r.dli.queue.epoch = none ∧ r.htr.window = false) ∧
        (s0.ins.epochState = .injecting → s0.cfg.stationCode < h.code →
          r.ins = { i with discarded := true, busTrack := none, branchTrack := heldCleared s0.ins.branchTrack, resend := true } ∧
          r.htr.window = s0.htr.window ∧
          (s0.ins.resend = false →
            r.dli.queue.epoch = some { content := .epoch s0.ins.epochNumber s0.ins.tHalf, failed := 0 })) ∧
        (s0.ins.epochState = .observing → h.code < s0.ins.injector ∨ h.code = s0.ins.injector ∧ epoch ≠ s0.ins.epochNumber →
          r.ins = observed ∧ r.htr.window = false) ∧
        (s0.ins.epochState = .observing → s0.ins.injector < h.code → r.ins = i ∧ r.htr.window = s0.htr.window) ∧
        (s0.ins.epochState = .observing → h.code = s0.ins.injector → epoch = s0.ins.epochNumber →
          let again : Ins := { i with
            origin := some s0.now, busTrack := none, half := .positive, points := 0, samplesU := [], samplesI := []
            discarded := false, source := .off
            lossDeadline := some (s0.now + (12 * s0.ins.tHalf + 2 * s0.cfg.ta) * 1000) }
          r.htr.window = false ∧
          (s0.ins.cycleCount < 6 → r.ins = { again with
            branchTrack := heldCleared s0.ins.branchTrack, cycleCount := s0.ins.cycleCount + 1, halfStart := some s0.now }) ∧
          (6 ≤ s0.ins.cycleCount → r.ins = { again with
            branchTrack := sixthCut s0.ins.branchTrack, halfStart := none })))

/-- FINDING (R6, R96, R100, R104, R106, R107, R110, R112, R115): its entry is refreshed, ACCEPTED or not. Out of range nothing
else is done with it; in range it ends the observed epoch it belongs to, an UNSETTLED one enters the trace alone, and an
ACCEPTED one becomes the bus record as well and is evaluated, by the state and the band, as R106 tabulates (`FindingAdopted`):
NORMAL and WARNING change places or begin an onset, ATTRIBUTED ends outside the alarm band, the latched states stay. An onset,
and an alarm finding in CLAIM_WAIT, ATTRIBUTED and BUS_FAULT, makes a station claim whose own branch result is below the alarm
threshold: INS_LOCAL, with INS_DOUBLE after it unless the claim is alone in CLAIM_WAIT, and the halt. Without a claim an onset
with two members, and an alarm in ATTRIBUTED whose one member has departed, are DOUBLE_FAULT. A sender that was STALE makes a
change of the table: F and a LIMIT_MISMATCH, where one begins, come before the finding's own faults (R15, R16), the grant, the
hold test and the split after them; that order is the model's reading, log 19. A sender that was FRESH leaves shares, demand and
F alone, a halt aside. That the gap counts the recessive bits that end a frame is the model's choice, log 22. That a zone whose
heating ends at the dose limit otherwise than by it keeps a heating time one microsecond short of it is the model's reading, log
14. -/
def Obligations.FindingArrivalTaken : Prop :=
  ∀ (t : Nat) (h : Header) (epoch result r v : Nat) (s : State), let s0 := elapse t s
    Reaches h s0 →
      let es := refreshedEntries h.code s0.ptb.entries
      let stale := wasStale h.code s0.ptb.entries = true
      let feeder := effectiveFeeder s0.cfg.feederLimit es
      let begins := stale ∧ MismatchBegins s0 es
      let f := if begins then faultAdded { time := clock s0, code := .limitMismatch
                                           detail := .number (leastFeederCode feeder es), state := s0.stc.op } s0.flt
        else s0.flt
      let d := { s0.dli with
        gapFrom := idleAfter s0.now (arrivedFrame h (.finding epoch result r v)).lineBits, framerFrom := s0.now + 192 }
      (1 < result ∨ 50000 < r ∨ 10000 < v → ∃ q, exec (.findingArrival t h epoch result r v) s = .next q ∧
        q.ptb.entries = es ∧ q.ins = s0.ins ∧ q.epi = s0.epi ∧ RestKept s0 q ∧
        RefreshSettled h.code s0.ptb.entries { s0 with dli := d } q ∧
        q.ptb.unlisted = s0.ptb.unlisted ∧ ZonesKept s0.cfg.doseLimit s0.htr.zones q.htr.zones) ∧
      (result ≤ 1 → r ≤ 50000 → v ≤ 10000 → ∃ q, exec (.findingArrival t h epoch result r v) s = .next q ∧
        (let ends := s0.ins.epochState = .observing ∧ s0.ins.epochNumber = epoch ∧ s0.ins.injector = h.code
        let branch := (if ends then s0.ins.setBranchRecord else s0.ins).branchFor epoch h.code
        q.ins.lastEpoch = epoch ∧ q.cfg = s0.cfg ∧ q.trm = s0.trm ∧ q.now = s0.now ∧ q.pending = s0.pending ∧
        q.ptb.unlisted = s0.ptb.unlisted ∧ SameEntries q.ptb.entries es ∧
        (begins → q.vlk.marks.fault = true) ∧
        (stale → q.ptb.feeder = feeder ∧ q.ptb.mismatch = decide (feeder < s0.cfg.feederLimit) ∧
          q.shu.record = computeGrant q.grantInputs) ∧
        (q.stc.op ≠ s0.stc.op → q.shu.limit = 0 ∧ q.shu.intent = 0) ∧
        (q.stc.op = s0.stc.op → q.htr.window = (if ends then false else s0.htr.window) ∧
          RefreshSettled h.code s0.ptb.entries { s0 with
            dli := d, ins := q.ins, trc := q.trc, flt := q.flt, vlk := q.vlk, htr := { s0.htr with window := q.htr.window }
            ptb := { s0.ptb with
              mismatch := if stale then decide (feeder < s0.cfg.feederLimit) else s0.ptb.mismatch } } q) ∧
        (ends → q.ins.epochState = .idle ∧ q.ins.branchRecord = s0.ins.setBranchRecord.branchRecord) ∧
        (q.stc.op = .session →
          q.ins.epochTimer = some (s0.now + (s0.cfg.epochInterval * 1000 + s0.cfg.stationCode * 100) * 1000)) ∧
        (result = 1 → q.trc = traceTaken { epoch := epoch, measurer := h.code, r := none, voltage := v, branch := branch
                                           time := clock s0 } s0.trc ∧
          q.ins.busRecord = s0.ins.busRecord ∧ q.epi = s0.epi ∧ q.stc = s0.stc ∧
          q.mtr = s0.mtr ∧ q.ses = s0.ses ∧ q.ptb.entries = es ∧ q.flt = f ∧
          q.vlk = (if begins then { s0.vlk with marks := { s0.vlk.marks with fault := true } } else s0.vlk)) ∧
        (result = 0 → FindingAdopted { s0 with flt := f } branch epoch h.code r v q)))

/-- CLAIM (R6, R109): its entry is refreshed; above 50000 kilohm it is discarded; otherwise its sender joins the claimant set or
its claim is replaced, and a new member makes ATTRIBUTED, BUS_FAULT and a CLAIM_WAIT with another member DOUBLE_FAULT, with
INS_DOUBLE and the halt (R112). A sender that was STALE makes a change of the table, passed on after the frame's work (log 19),
and any other leaves shares, demand, faults and F alone. That the gap counts the recessive bits that end a frame is the model's
choice, log 22. That a zone whose heating ends at the dose limit otherwise than by it keeps a heating time one microsecond short
of it is the model's reading, log 14. -/
def Obligations.ClaimArrivalTaken : Prop :=
  ∀ (t : Nat) (h : Header) (epoch rb : Nat) (s : State), let s0 := elapse t s
    Reaches h s0 →
      let es := refreshedEntries h.code s0.ptb.entries
      let joined := joinClaimant { code := h.code, epoch := epoch, rb := rb, departed := false } s0.epi.claimants
      let doubles := isMember h.code s0.epi.claimants = false ∧
        (s0.epi.state = .attributed ∨ s0.epi.state = .busFault ∨ s0.epi.state = .claimWait ∧ 2 ≤ joined.length)
      let d := { s0.dli with
        gapFrom := idleAfter s0.now (arrivedFrame h (.claim epoch rb)).lineBits, framerFrom := s0.now + 192 }
      (50000 < rb → ∃ q, exec (.claimArrival t h epoch rb) s = .next q ∧ q.epi = s0.epi ∧ q.ptb.entries = es ∧
        RefreshSettled h.code s0.ptb.entries { s0 with dli := d } q ∧ RestKept s0 q ∧ q.ins = s0.ins ∧ ZonesKept s0.cfg.doseLimit s0.htr.zones q.htr.zones ∧ q.ptb.unlisted = s0.ptb.unlisted) ∧
      (rb ≤ 50000 → ¬ doubles → ∃ q, exec (.claimArrival t h epoch rb) s = .next q ∧
        q.epi = { s0.epi with claimants := joined } ∧
        q.ptb.entries = es.map (fun e => { e with claimant := isMember e.code joined }) ∧ RestKept s0 q ∧ q.ins = s0.ins ∧
        ZonesKept s0.cfg.doseLimit s0.htr.zones q.htr.zones ∧ q.ptb.unlisted = s0.ptb.unlisted ∧
        RefreshSettled h.code s0.ptb.entries { s0 with dli := d } q) ∧
      (rb ≤ 50000 → doubles → ∃ q, exec (.claimArrival t h epoch rb) s = .next q ∧
        q.epi = { s0.epi with state := .doubleFault, claimants := joined, window := none } ∧
        q.ptb.entries = es.map (fun e => { e with claimant := isMember e.code joined }) ∧
        LastFault .insDouble (.number rb) q ∧ q.stc.op = .halted ∧ q.shu.limit = 0 ∧ q.shu.intent = 0 ∧
        (wasStale h.code s0.ptb.entries = true → q.ptb.feeder = effectiveFeeder s0.cfg.feederLimit es ∧
          q.ptb.mismatch = decide (q.ptb.feeder < s0.cfg.feederLimit) ∧ q.shu.record = computeGrant q.grantInputs) ∧
        q.dli.queue.leave = some { content := .none, failed := 0 } ∧ q.trc = s0.trc ∧ q.ins.busRecord = s0.ins.busRecord ∧
        q.cfg = s0.cfg ∧ q.trm = s0.trm ∧ q.now = s0.now ∧ q.pending = s0.pending)

/-- LEAVE (R8): the entry goes at once, a change of the table; the Insulation Unit is told where the code is a claimant, with an
entry or without one; the unlisted-peer timer is not touched. That the gap counts the recessive bits that end a frame is the
model's choice, log 22. That a zone whose heating ends at the dose limit otherwise than by it keeps a heating time one
microsecond short of it is the model's reading, log 14. -/
def Obligations.LeaveArrivalTaken : Prop :=
  ∀ (t : Nat) (h : Header) (s : State), let s0 := elapse t s
    Reaches h s0 →
      let d := { s0.dli with gapFrom := idleAfter s0.now (arrivedFrame h .leave).lineBits, framerFrom := s0.now + 192 }
      let told : Epi := { s0.epi with claimants := markDeparted true h.code s0.epi.claimants }
      (∀ e, findEntry h.code s0.ptb.entries = some e → ∃ r, exec (.leaveArrival t h) s = .next r ∧
        r.ptb.entries = s0.ptb.entries.filter (fun x => x.code != h.code) ∧ r.ptb.unlisted = s0.ptb.unlisted ∧
        r.epi = told ∧ TableSettled { s0 with dli := d } r) ∧
      (findEntry h.code s0.ptb.entries = none →
        exec (.leaveArrival t h) s = .next { s0 with
          dli := d, epi := told
          ptb := { s0.ptb with entries := s0.ptb.entries.filter (fun x => x.code != h.code) } } ∧
        s0.ptb.entries.filter (fun x => x.code != h.code) = s0.ptb.entries)

/-! ## The framer and the transmitter -/

/-- RECEIVE_DISCARD, ATTEMPT_START and BACKOFF_END (R44, R145, R149, R150, R153, R154). A reading that is no sound frame moves the
two idle marks alone, to 12 bit times after its last dominant bit; the framer's is 12 bit times after the end of a whole frame all
the same, whatever bits end it. That the gap counts the recessive bits that end a frame is the model's choice, log 22, and that a
whole sound reading acts as its arrival is its choice, log 13. A station that is sending receives nothing. With the gap complete
the highest-priority kind queued that the state sends goes out, an ANNOUNCE with the figures of that moment; while the line has
not been recessive for 12 bit times nothing starts; that the line's recessive time comes with the command and that the command's
moment is the bit boundary is the model's choice, log 22. A backoff that has run out is over. -/
def Obligations.LineTimersTaken : Prop :=
  ∀ (t : Nat) (s : State), let s0 := elapse t s
    (∀ begun bits, readFrame s0.cfg.depotCode bits = none → s0.dli.attempt = none →
      let gap := s0.now + 192 - 16 * min 12 (bits.reverse.takeWhile id).length
      (∀ rest, beyondFrame bits = some rest → exec (.receiveDiscard t begun bits) s = .next { s0 with
        dli := { s0.dli with gapFrom := gap, framerFrom := max gap (s0.now + 192 - 16 * rest.length) } }) ∧
      (beyondFrame bits = none → exec (.receiveDiscard t begun bits) s = .next { s0 with
        dli := { s0.dli with gapFrom := gap, framerFrom := gap } })) ∧
    (∀ begun bits a, s0.dli.attempt = some a → exec (.receiveDiscard t begun bits) s = .next s0) ∧
    (∀ begun bits f, readFrame s0.cfg.depotCode bits = some f →
      exec (.receiveDiscard t begun bits) s =
        exec (arrivalOf t { begun := begun, code := f.code, depot := f.depot } f.payload) s) ∧
    (∀ k e recessive, s0.dli.attempt = none → s0.dli.backoff = none → s0.dli.gapFrom ≤ s0.now → recessive + 192 ≤ s0.now →
      s0.dli.queue.get k = some e → sends s0.stc.op k = true →
      (∀ j, (s0.dli.queue.get j).isSome = true → sends s0.stc.op j = true → priorityOrder.idxOf k ≤ priorityOrder.idxOf j) →
      let figures : ShareFields :=
        { feederLimit := s0.cfg.feederLimit, demand := s0.dmu.ownDemand, weight := s0.dmu.weight, limit := s0.shu.limit
          intent := s0.shu.intent
          flags := { session := decide (s0.stc.op = .session), charging := decide (0 < s0.shu.setpoint),
                     heating := s0.htr.zones.anyHeating } }
      let f : Frame := { code := s0.cfg.stationCode, depot := s0.cfg.depotCode,
                         payload := if k = .announce then .announce figures else e.content.payload }
      exec (.attemptStart ⟨t, recessive⟩) s = .next { s0 with dli := { s0.dli with
        attempt := some { kind := k, frame := f, ends := s0.now + 16 * f.lineBits.length, refreshed := false } } }) ∧
    (∀ recessive, s0.now < recessive + 192 ∨ s0.now < s0.dli.gapFrom ∨ s0.dli.attempt ≠ none ∨ s0.dli.backoff ≠ none ∨
      (∀ k, s0.dli.queue.get k = none ∨ sends s0.stc.op k = false) → exec (.attemptStart ⟨t, recessive⟩) s = .next s0) ∧
    (∀ m, s0.dli.backoff = some m → m ≤ s0.now →
      exec (.backoffEnd t) s = .next { s0 with dli := { s0.dli with backoff := none } })

/-- A frame sent (R17, R38, R88, R99, R151): its entry leaves the queue unless it was asked for again, the line must go idle,
and its owner acts: a raised intent carried starts the hold and clears the heard marks; the own EPOCH starts injection, or moves
the origin after an overlap; sent again during the sixth cycle, which it cuts short, it ends the epoch UNSETTLED (R93, R94; that
this happens in the event of the sending is the model's reading, log 16); CLAIM and LEAVE empty the table in HALTED once neither
is queued. That the gap counts the recessive bits that end a frame is the model's choice, log 22. That a zone whose heating ends
at the dose limit otherwise than by it keeps a heating time one microsecond short of it is the model's reading, log 14. -/
def Obligations.FramesSentTaken : Prop :=
  ∀ (t : Nat) (a : Attempt) (s : State), let s0 := elapse t s
    s0.dli.attempt = some a → a.ends ≤ s0.now →
      let d : Dli := { s0.dli with queue := if a.refreshed then s0.dli.queue else s0.dli.queue.set a.kind none
                                   attempt := none, gapFrom := idleAfter s0.now a.frame.lineBits, framerFrom := s0.now + 192 }
      (a.kind = .finding → exec (.findingSent t) s = .next { s0 with dli := d }) ∧
      (∀ f, a.kind = .announce → a.frame.payload = .announce f → s0.shu.raisePending = true → s0.shu.intent ≤ f.intent →
        exec (.announceSent t) s = .next { s0 with
          dli := d
          shu := { s0.shu with raisePending := false, holdStart := some s0.now
                               holdTimer := some (s0.now + 2 * s0.cfg.ta * 1000) }
          ptb := { s0.ptb with entries := s0.ptb.entries.map (fun e => { e with heard := false }) } }) ∧
      (∀ f, a.kind = .announce → a.frame.payload = .announce f → s0.shu.raisePending = false ∨ f.intent < s0.shu.intent →
        exec (.announceSent t) s = .next { s0 with dli := d }) ∧
      (a.kind = .epoch → s0.ins.epochState = .pending → exec (.epochSent t) s = .next { s0 with
        dli := d
        ins := { s0.ins with
          epochState := .injecting, origin := some s0.now, cycleCount := 1, busTrack := none, branchTrack := .absent
          resend := false, lossDeadline := none, lastEstimate := none, source := .positive, halfStart := some s0.now
          half := .positive, points := 0, samplesU := [], samplesI := [], discarded := false } }) ∧
      (a.kind = .epoch → s0.ins.epochState = .injecting → s0.ins.resend = true → s0.ins.cycleCount < 6 → ∃ r,
        exec (.epochSent t) s = .next r ∧ r.dli = d ∧ r.htr.window = false ∧ RestKept s0 r ∧ r.ptb = s0.ptb ∧ r.shu = s0.shu ∧
        r.dmu = s0.dmu ∧ r.epi = s0.epi ∧ r.flt = s0.flt ∧ r.vlk = s0.vlk ∧ ZonesKept s0.cfg.doseLimit s0.htr.zones r.htr.zones ∧
        r.ins = { s0.ins with
          origin := some s0.now, cycleCount := s0.ins.cycleCount + 1, busTrack := none
          branchTrack := s0.ins.branchTrack.clearHeld, resend := false, source := .positive, halfStart := some s0.now
          half := .positive, points := 0, samplesU := [], samplesI := [], discarded := false }) ∧
      (a.kind = .epoch → s0.stc.op = .session → s0.ins.epochState = .injecting → s0.ins.resend = true → 6 ≤ s0.ins.cycleCount → ∃ r,
        exec (.epochSent t) s = .next r ∧
        EpochUnsettled s0 s0.ins.branchTrack (match s0.ins.lastEstimate with
          | some x => x
          | none => 65535) r ∧
        (s0.cfg.policies.insUnsettled = false →
          let finding : TxEntry := { content := .finding s0.ins.epochNumber 1 0 (sampledVoltage s0), failed := 0 }
          r.dli = { d with queue := d.queue.set .finding (some finding) })) ∧
      (a.kind = .epoch → s0.ins.epochState = .injecting → s0.ins.resend = false → exec (.epochSent t) s = .next { s0 with dli := d }) ∧
      (a.kind = .epoch → s0.ins.epochState = .idle ∨ s0.ins.epochState = .observing →
        exec (.epochSent t) s = .next { s0 with dli := d }) ∧
      (a.kind = .claim ∨ a.kind = .leave →
        let c := if a.kind = .claim then Instr.claimSent t else Instr.leaveSent t
        (s0.stc.op ≠ .halted ∨ d.queue.claim ≠ none ∨ d.queue.leave ≠ none → exec c s = .next { s0 with dli := d }) ∧
        (s0.stc.op = .halted → d.queue.claim = none → d.queue.leave = none → ∃ r, exec c s = .next r ∧
          r.ptb = { entries := [], unlisted := none, feeder := s0.cfg.feederLimit, mismatch := false } ∧ r.epi = s0.epi ∧
          TableSettled { s0 with dli := d } r))

/-- A failed attempt (R17, R88, R99, R147, R152, R153): the line sequence gives a backoff of 0 to 31 slots; an ANNOUNCE stays
queued, an entry asked for again starts at 0, another counts the failure, and the fourth drops it, records the drop and posts
FRAME_DROPPED, and leaves the other kinds' entries as they are (an ANNOUNCE too, except where emptying the table ends a hold or
lowers a limit or intent above 0, which HALTED has at 0). A dropped own EPOCH in PENDING, or queued again after an overlap,
gives its epoch up; a dropped CLAIM or LEAVE in HALTED empties the table once neither is queued. The framer goes on with the
winning frame, which began with the attempt (R150). That the gap after a failure counts from the bits read back at the earliest,
and from the line's own recessive time with ATTEMPT_START, is the model's choice, log 22. -/
def Obligations.AttemptFailedTaken : Prop :=
  ∀ (t : Nat) (a : Attempt) (s : State), let s0 := elapse t s
    s0.dli.attempt = some a →
      let r := sequenceDraw s0.dli.sequence
      let after := fun (q : TxQueue) =>
        Host.Outcome.next (φ := Fault) (ρ := Refusal) { s0 with dli := { s0.dli with
          queue := q, attempt := none, gapFrom := idleAfter s0.now (a.readBack s0.now), sequence := r
          framerFrom := min s0.dli.framerFrom (a.ends - 16 * a.frame.lineBits.length)
          backoff := some (s0.now + 256 * (r.toNat % 32)) } }
      (a.kind = .announce → (∀ e, s0.dli.queue.announce = some e → e.failed = 0) →
        exec (.attemptFailed t) s = after s0.dli.queue) ∧
      (∀ e, a.kind ≠ .announce → s0.dli.queue.get a.kind = some e → a.refreshed = true →
        exec (.attemptFailed t) s = after (s0.dli.queue.set a.kind (some { e with failed := 0 }))) ∧
      (∀ e, a.kind ≠ .announce → s0.dli.queue.get a.kind = some e → a.refreshed = false → e.failed < 3 →
        exec (.attemptFailed t) s = after (s0.dli.queue.set a.kind (some { e with failed := e.failed + 1 }))) ∧
      (∀ e, a.kind ≠ .announce → s0.dli.queue.get a.kind = some e → a.refreshed = false → 3 ≤ e.failed → ∃ q,
        exec (.attemptFailed t) s = .next q ∧ q.dli.queue.get a.kind = none ∧ q.dli.dropKind = some a.kind ∧
        (∀ k, k ≠ a.kind → k ≠ .announce → q.dli.queue.get k = s0.dli.queue.get k) ∧
        q.dli.gapFrom = idleAfter s0.now (a.readBack s0.now) ∧ q.dli.announce = s0.dli.announce ∧
        q.dli.dropCount = min (s0.dli.dropCount + 1) 65535 ∧ q.dli.attempt = none ∧ q.dli.sequence = r ∧
        q.dli.backoff = some (s0.now + 256 * (r.toNat % 32)) ∧
        q.dli.framerFrom = min s0.dli.framerFrom (a.ends - 16 * a.frame.lineBits.length) ∧
        q.dli.framerUntil = s0.dli.framerUntil ∧ RestKept s0 q ∧
        q.vlk = { s0.vlk with marks := { s0.vlk.marks with frameDropped := true } } ∧
        q.epi = s0.epi ∧ q.flt = s0.flt ∧
        (a.kind = .epoch → s0.ins.epochState = .pending ∨ s0.ins.epochState = .injecting ∧ s0.ins.resend = true →
          q.ins.epochState = .idle ∧ q.ins.source = .off ∧ q.ins.cycleRecord = none ∧ q.ins.busTrack = none ∧
          q.ins.resend = false ∧ q.ins.branchRecord = s0.ins.branchRecord ∧
          q.ins.epochTimer = some (s0.now + (s0.cfg.epochInterval * 1000 + s0.cfg.stationCode * 100) * 1000)) ∧
        (a.kind = .epoch → s0.ins.epochState = .injecting → s0.ins.resend = true → q.htr.window = false) ∧
        (a.kind = .epoch → s0.ins.epochState = .idle ∨ s0.ins.epochState = .observing ∨
          s0.ins.epochState = .injecting ∧ s0.ins.resend = false → q.ins = s0.ins) ∧
        (a.kind ≠ .epoch → q.ins = s0.ins) ∧
        (let done := (a.kind = .claim ∨ a.kind = .leave) ∧ s0.stc.op = .halted ∧ q.dli.queue.claim = none ∧
          q.dli.queue.leave = none
        (done → q.ptb = { entries := [], unlisted := none, feeder := s0.cfg.feederLimit, mismatch := false }) ∧
        (¬ done ∨ s0.shu.limit = 0 ∧ s0.shu.intent = 0 ∧ s0.shu.hold = .steady →
          q.dli.queue.announce = s0.dli.queue.announce) ∧
        (¬ done → q.ptb = s0.ptb ∧ q.shu = s0.shu ∧ q.dmu = s0.dmu)))

/-! ## Timers and thresholds -/

/-- An entry silent for 3 T_a goes STALE, one silent for 6 T_a is removed and a claimant's departure told, and the unlisted-peer
timer's end stops it; each is a change of the table (R9, R10, R13). That a zone whose heating ends at the dose limit otherwise
than by it keeps a heating time one microsecond short of it is the model's reading, log 14. -/
def Obligations.AgeingTaken : Prop :=
  ∀ (t code : Nat) (e : PeerEntry) (m : Nat) (s : State), let s0 := elapse t s
    (findEntry code s0.ptb.entries = some e → e.freshness = .fresh → 3 * s0.cfg.ta * 1000 ≤ e.silence → ∃ r,
      exec (.staleThreshold t code) s = .next r ∧
      r.ptb.entries = s0.ptb.entries.map (fun x => if x.code = code then { x with freshness := .stale } else x) ∧
      r.ptb.unlisted = s0.ptb.unlisted ∧ r.epi = s0.epi ∧ TableSettled s0 r) ∧
    (findEntry code s0.ptb.entries = some e → 6 * s0.cfg.ta * 1000 ≤ e.silence → ∃ r,
      exec (.removalThreshold t code) s = .next r ∧
      r.ptb.entries = s0.ptb.entries.filter (fun x => x.code != code) ∧ r.ptb.unlisted = s0.ptb.unlisted ∧
      r.epi = { s0.epi with claimants := markDeparted true code s0.epi.claimants } ∧ TableSettled s0 r) ∧
    (s0.ptb.unlisted = some m → m ≤ s0.now → ∃ r, exec (.unlistedPeerTimerExpiry t) s = .next r ∧
      r.ptb.entries = s0.ptb.entries ∧ r.ptb.unlisted = none ∧ r.epi = s0.epi ∧ TableSettled s0 r)

/-- The hold timer, the announce timer and the listen window (R40, R45, R51, R159): with every condition of the hold met the
limit becomes the smaller of intent and grant and the hold is over, otherwise it stays; the announce timer queues an ANNOUNCE
and runs on for T_a with a jitter of at most T_a/8; the listen window's end brings LINKED, the first ANNOUNCE and the announce
timer. That a zone whose heating ends at the dose limit otherwise than by it keeps a heating time one microsecond short of it is
the model's reading, log 14. -/
def Obligations.ShareTimersTaken : Prop :=
  (∀ (ta : Nat) (r : Word16), (ta - ta / 8) * 1000 ≤ announcePeriod ta r ∧ announcePeriod ta r ≤ (ta + ta / 8) * 1000) ∧
  ∀ (t m : Nat) (s : State), let s0 := elapse t s
    let r := sequenceDraw s0.dli.sequence
    (s0.shu.holdTimer = some m → m ≤ s0.now →
      let met := s0.shu.hold = .holding ∧ s0.shu.raisePending = false ∧
        (∃ h, s0.shu.holdStart = some h ∧ h + 2 * s0.cfg.ta * 1000 ≤ s0.now) ∧
        ∀ e ∈ s0.ptb.entries, e.freshness = .stale ∨ e.heard = true
      ∃ q, exec (.holdTimerExpiry t) s = .next q ∧ RestKept s0 q ∧ q.ptb = s0.ptb ∧ q.ins = s0.ins ∧ q.epi = s0.epi ∧
        q.flt = s0.flt ∧ q.vlk = s0.vlk ∧ q.shu.holdTimer = none ∧ q.shu.record = s0.shu.record ∧
        q.shu.intent = s0.shu.intent ∧ q.dmu = s0.dmu.split s0.cfg.tPermit q.shu.limit ∧
        q.shu.setpoint = min s0.shu.setpoint q.dmu.chargerAllow ∧ ZonesKept s0.cfg.doseLimit s0.htr.zones q.htr.zones ∧
        (met → q.shu.limit = min s0.shu.intent s0.shu.record.grant ∧ q.shu.hold = .steady ∧ q.shu.holdStart = none ∧
          q.shu.peak = (if s0.shu.limit < q.shu.limit then max s0.shu.peak q.shu.limit else s0.shu.peak) ∧
          q.dli = s0.dli.queueFrame s0.stc.op .announce .none) ∧
        (¬ met → q.shu.limit = s0.shu.limit ∧ q.shu.hold = s0.shu.hold ∧ q.shu.holdStart = s0.shu.holdStart ∧
          q.shu.peak = s0.shu.peak ∧ q.dli = s0.dli)) ∧
    (s0.dli.announce = some m → m ≤ s0.now → exec (.announceTimerExpiry t) s = .next { s0 with
      dli := { s0.dli.queueFrame s0.stc.op .announce .none with
        sequence := r, announce := some (m + announcePeriod s0.cfg.ta r) } }) ∧
    (s0.stc.op = .listening → s0.stc.listenWindow = some m → m ≤ s0.now → ∃ q, exec (.listenWindowExpiry t) s = .next q ∧
      q.stc = { s0.stc with op := .linked, listenWindow := none } ∧ q.dli.queue.announce.isSome = true ∧
      q.dli.sequence = r ∧ q.dli.announce = some (s0.now + announcePeriod s0.cfg.ta r) ∧ q.shu.record.grant = 0 ∧
      q.shu.record.zeroCause = .noSession ∧ q.vlk = { s0.vlk with marks := { s0.vlk.marks with stateChanged := true } } ∧
      q.ptb = s0.ptb ∧ q.ins = s0.ins ∧ q.epi = s0.epi ∧ q.trc = s0.trc ∧ q.mtr = s0.mtr ∧ q.ses = s0.ses ∧ q.flt = s0.flt ∧
      q.cfg = s0.cfg ∧ q.trm = s0.trm ∧ q.now = s0.now ∧ q.pending = s0.pending)

/-- The heater's events (R70 to R72, R74, R75, R78 to R80, R82): the stagger timer's end brings the switch-on test; the idle
timer's end opens the heater contactor, and any event that leaves no zone HEATING in SESSION behind a closed contactor starts it
to run 30 s; the dose limit takes a zone OUT as INEFFECTIVE; a conversion, once for its zone in a cycle of 1000 ms, stores its
reading, moves its zone by the first row that applies, a cold WARM or WAITING zone to WAITING or, where the switch-on test takes
it (R74), to HEATING, and a HEATING one that has left the heater allowance to WAITING (R76), and the demand follows, a change of
own demand handed to the grant, limit and intent, and the split (R30, R31, R37, R62, R65); a zone whose heating it ends keeps a
heating time just short of the dose limit. A move to OUT raises HEATER_ZONE, and after it, where it leaves all four zones OUT,
HEATER_ALL_OUT with the same detail, which halts under the stop policy alone (R80). That a zone's slot may lie anywhere in the
cycle is the model's choice, log 25; that a conversion out of turn, or with the cycle stopped, does nothing is log 4; that a
zone of rating 0 is switched on at an allowance of 0 before a session's first hold completes is the model's choice, log 43. That
a zone whose heating ends at the dose limit otherwise than by it keeps a heating time one microsecond short of it is the model's
reading, log 14. -/
def Obligations.HeaterEventsTaken : Prop :=
  (∀ (c : Instr) (s q : State), exec c s = .next q → s.htr.zones.anyHeating = true → q.htr.zones.anyHeating = false →
    q.stc.op = .session → q.htr.contactor = true → q.htr.idle = some (q.now + 30000000)) ∧
  ∀ (t m : Nat) (z : ZoneId) (s : State), let s0 := elapse t s
    let heating := ratedSum Zone.heats s0.htr.zones s0.cfg.ratings
    let fits := fun w => s0.stc.op = .session ∧ s0.htr.window = false ∧ heating + s0.cfg.ratings.get w ≤ s0.dmu.heaterAllow
    let old := s0.htr.zones.get z
    let followed := fun (q : State) => q.dmu.tMin = tMinOf q.htr.zones ∧
      q.dmu.heaterDemand = ratedSum Zone.asks q.htr.zones q.cfg.ratings ∧
      q.dmu.ownDemand = min q.cfg.ist (q.dmu.chargerDemand + q.dmu.heaterDemand) ∧ q.cfg = s0.cfg ∧ q.trm = s0.trm ∧
      q.trc = s0.trc ∧ q.now = s0.now ∧ q.pending = s0.pending ∧
      (q.stc.op = s0.stc.op → DemandSettled (FiguresMoved s0 q) s0 q) ∧
      ∀ w, w ≠ z → (q.htr.zones.get w).temp = (s0.htr.zones.get w).temp ∧
        HeatTimeKept s0.cfg.doseLimit (s0.htr.zones.get w) (q.htr.zones.get w) ∧
        (q.htr.zones.get w).outCause = (s0.htr.zones.get w).outCause
    let short := min old.heatTime (s0.cfg.doseLimit * 1000000 - 1)
    let turn := fun (c : Nat) => s0.htr.cycleStart = some c ∧ s0.htr.converted.get z ≤ (s0.now - c) / 1000000
    let counted := fun (c : Nat) => s0.htr.converted.set z ((s0.now - c) / 1000000 + 1)
    (∀ w, s0.htr.stagger = some m → m ≤ s0.now → firstWaiting s0.cfg.zoneOrder s0.htr.zones = some w → fits w →
      exec (.staggerTimerExpiry t) s = .next { s0 with htr := { s0.htr with
        zones := s0.htr.zones.set w { s0.htr.zones.get w with state := .heating }, contactor := true, idle := none
        stagger := some (s0.now + 2000000) } }) ∧
    (s0.htr.stagger = some m → m ≤ s0.now → (∀ w, firstWaiting s0.cfg.zoneOrder s0.htr.zones = some w → ¬ fits w) →
      exec (.staggerTimerExpiry t) s = .next { s0 with htr := { s0.htr with stagger := none } }) ∧
    (s0.htr.idle = some m → m ≤ s0.now →
      exec (.idleTimerExpiry t) s = .next { s0 with htr := { s0.htr with idle := none, contactor := false } }) ∧
    (old.state = .heating → s0.cfg.doseLimit * 1000000 ≤ old.heatTime → ∃ q, exec (.doseLimit t z) s = .next q ∧
      q.htr.zones.get z = { old with state := .out, outCause := some .ineffective } ∧ followed q ∧
      OutRaised z .ineffective s0 q) ∧
    (∀ (d : Int) (c : Nat), turn c → -500 ≤ d → d ≤ 1000 → ∃ q,
      exec (.temperatureConversion t z (.reading d)) s = .next q ∧ followed q ∧ q.htr.converted = counted c ∧
      q.htr.cycleStart = some c ∧ (q.htr.zones.get z).temp = some d ∧
      (old.state ≠ .heating → (q.htr.zones.get z).heatTime = old.heatTime) ∧
      (old.state = .heating → (q.htr.zones.get z).state = .out ∨ (q.htr.zones.get z).state = .warm →
        (q.htr.zones.get z).heatTime = short) ∧
      (old.state = .out → (q.htr.zones.get z).state = .out ∧ (q.htr.zones.get z).outCause = old.outCause) ∧
      (old.state ≠ .out → s0.cfg.tCut < d → (q.htr.zones.get z).state = .out ∧
        (q.htr.zones.get z).outCause = some .overtemp ∧
        OutRaised z .overtemp s0 q) ∧
      (old.state ≠ .out → d ≤ s0.cfg.tCut →
        ((q.htr.zones.get z).state = .warm ↔ old.state = .warm ∧ s0.cfg.tTarget ≤ d ∨
          old.state = .waiting ∧ s0.cfg.tTarget ≤ d ∨ old.state = .heating ∧ s0.cfg.tTarget + s0.cfg.hysteresis ≤ d) ∧
        (q.htr.zones.get z).state ≠ .out ∧
        (let asks := old.state ≠ .heating ∧ d < s0.cfg.tTarget
        let asking := s0.htr.zones.set z { old with state := .waiting }
        (asks → s0.stc.op ≠ .session ∨ s0.htr.window = true ∨ s0.htr.stagger ≠ none ∨
          q.dmu.heaterAllow < s0.cfg.ratings.get z → (q.htr.zones.get z).state = .waiting) ∧
        (asks → s0.stc.op = .session → s0.htr.window = false → s0.htr.stagger = none →
          firstWaiting s0.cfg.zoneOrder asking = some z → heating + s0.cfg.ratings.get z ≤ q.dmu.heaterAllow →
          (q.htr.zones.get z).state = .heating ∧ q.htr.contactor = true ∧ q.htr.idle = none ∧
            q.htr.stagger = some (s0.now + 2000000)) ∧
        (asks → s0.stc.op = .session → heating ≤ q.dmu.heaterAllow → firstWaiting s0.cfg.zoneOrder asking ≠ some z ∨
          q.dmu.heaterAllow < heating + s0.cfg.ratings.get z → (q.htr.zones.get z).state = .waiting) ∧
        (old.state = .heating → d < s0.cfg.tTarget + s0.cfg.hysteresis →
          ((q.htr.zones.get z).state = .heating ∨ (q.htr.zones.get z).state = .waiting) ∧
          (heating ≤ q.dmu.heaterAllow → (q.htr.zones.get z).state = .heating))))) ∧
    (∀ (x : Conversion) (c : Nat), turn c → x = .openCircuit ∨ x = .shortCircuit → old.state ≠ .out →
      let cause := if x = .openCircuit then OutCause.sensorOpen else .sensorShort
      ∃ q, exec (.temperatureConversion t z x) s = .next q ∧ followed q ∧ q.htr.converted = counted c ∧
        q.htr.zones.get z = { old with
          state := .out, outCause := some cause, heatTime := if old.state = .heating then short else old.heatTime } ∧
        OutRaised z cause s0 q) ∧
    (∀ (x : Conversion) (c : Nat), turn c → x = .openCircuit ∨ x = .shortCircuit → old.state = .out →
      exec (.temperatureConversion t z x) s = .next { s0 with htr := { s0.htr with converted := counted c } }) ∧
    (∀ x, (∀ c, ¬ turn c) → exec (.temperatureConversion t z x) s = .next s0)

/-- The insulation timers (R86, R87, R97, R111): the epoch timer makes up an own EPOCH in SESSION and IDLE and only stops
otherwise; the loss deadline ends the observed epoch with its branch record; the claim window's end makes BUS_FAULT with INS_BUS
without a claimant, and ATTRIBUTED with one; the epoch made up has no timing origin and no cycle yet (R85; that the origin reads
absent and the count 0 until the EPOCH is sent is the model's reading, log 17). That a zone whose heating ends at the dose limit
otherwise than by it keeps a heating time one microsecond short of it is the model's reading, log 14. -/
def Obligations.InsulationTimersTaken : Prop :=
  ∀ (t m : Nat) (s : State), let s0 := elapse t s
    let n := (s0.ins.lastEpoch + 1) % 256
    let half := min 6000 (1000 + 200 * (1 + (s0.ptb.entries.filter (fun e => e.share.flags.session)).length))
    (s0.ins.epochTimer = some m → m ≤ s0.now → s0.stc.op = .session → s0.ins.epochState = .idle →
      exec (.epochTimerExpiry t) s = .next { s0 with
        ins := { s0.ins with epochTimer := none, epochState := .pending, epochNumber := n, lastEpoch := n
                             injector := s0.cfg.stationCode, tHalf := half, origin := none, cycleCount := 0 }
        dli := s0.dli.queueFrame s0.stc.op .epoch (.epoch n half) }) ∧
    (s0.ins.epochTimer = some m → m ≤ s0.now → s0.stc.op ≠ .session ∨ s0.ins.epochState ≠ .idle →
      exec (.epochTimerExpiry t) s = .next { s0 with ins := { s0.ins with epochTimer := none } }) ∧
    (s0.ins.epochState = .observing → s0.ins.lossDeadline = some m → m ≤ s0.now → ∃ q,
      exec (.lossDeadline t) s = .next q ∧ q.ins.epochState = .idle ∧ q.ins.source = .off ∧ q.ins.busTrack = none ∧
      q.ins.branchTrack = .absent ∧ q.ins.cycleRecord = none ∧ q.ins.lossDeadline = none ∧
      q.ins.branchRecord = some { epoch := s0.ins.epochNumber, injector := s0.ins.injector
                                  result := match s0.ins.branchTrack with
                                    | .accepted x => some x
                                    | _ => none } ∧
      q.ins.epochTimer = some (s0.now + (s0.cfg.epochInterval * 1000 + s0.cfg.stationCode * 100) * 1000) ∧
      q.ins.busRecord = s0.ins.busRecord ∧ q.ins.lastEpoch = s0.ins.lastEpoch ∧ q.htr.window = false ∧ RestKept s0 q ∧
      q.ptb = s0.ptb ∧ q.shu = s0.shu ∧ q.dmu = s0.dmu ∧ q.epi = s0.epi ∧ q.flt = s0.flt ∧ q.vlk = s0.vlk ∧ q.dli = s0.dli ∧
      ZonesKept s0.cfg.doseLimit s0.htr.zones q.htr.zones) ∧
    (s0.epi.state = .claimWait → s0.epi.window = some m → m ≤ s0.now →
      (∀ o, s0.epi.claimants = [] → s0.epi.onset = some o → ∃ q, exec (.claimWindowExpiry t) s = .next q ∧
        q.epi = { s0.epi with state := .busFault, window := none } ∧ FaultRaised .insBus (.number o.r) s0 q ∧
        (s0.cfg.policies.insBus = false → RestKept s0 q ∧ q.ins = s0.ins) ∧
        (s0.cfg.policies.insBus = true → s0.stc.op.takesFrames = true → q.stc.op = .halted)) ∧
      (∀ c, s0.epi.claimants = [c] → exec (.claimWindowExpiry t) s = .next { s0 with
        epi := { s0.epi with state := .attributed, window := none } }))

/-! ## Sensors -/

/-- The samples of a cycle (R84, R89, R90, R92 to R95, R101): a sample point takes U and I_b, the first opening the window; the
end of the positive half starts the negative one; the end of a cycle moves the branch track by its estimate, and starts the next
cycle, or, for the injector, ends the epoch ACCEPTED with the bus track's result, its FINDING queued, entered in the trace,
adopted and evaluated (R106, R107, R115), or UNSETTLED at the sixth, its FINDING queued and entered in the trace, with the last
bus estimate as INS_UNSETTLED's detail; an observer goes on to its sixth cycle and then waits, and takes no samples once its
track is final. That a sample beyond its range is taken as the nearer bound is the model's reading, log 23, and that an
unsampled cycle that completes leaves no cycle record is its reading, log 33. That a zone whose heating ends at the dose limit
otherwise than by it keeps a heating time one microsecond short of it is the model's reading, log 14. -/
def Obligations.CycleSamplesTaken : Prop :=
  ∀ (t h : Nat) (u ib : Int) (s : State), let s0 := elapse t s
    let i := s0.ins
    let taking := i.epochState = .injecting ∨ i.epochState = .observing ∧ i.branchTrack.final = false
    let us := if taking then i.samplesU ++ [max (-600000) (min u 600000)] else i.samplesU
    let is := if taking then i.samplesI ++ [max (-100000) (min ib 100000) * s0.trm.inUse.branchGain / 10000] else i.samplesI
    let ends := h + i.tHalf * 1000
    let j : Ins := { i with samplesU := us, samplesI := is, points := i.points + 1 }
    let sound := us.length = 6 ∧ (us.getD 1 0 - us.getD 2 0).natAbs ≤ s0.trm.inUse.ui / 100 ∧
      (us.getD 4 0 - us.getD 5 0).natAbs ≤ s0.trm.inUse.ui / 100 ∧ i.discarded = false
    let branch := if sound then some (branchEstimate (us.getD 2 0 - us.getD 5 0) (is.getD 2 0 - is.getD 5 0)) else none
    let track := match i.branchTrack with
      | .accepted x => .accepted x
      | .unsettled => .unsettled
      | b => match trackStep b.heldEstimate branch with
        | .accepted x => .accepted x
        | .held e => if 6 ≤ i.cycleCount then .unsettled else BranchTrack.ofHeld e
    let record := if us.length = 6 then some (us, is) else none
    i.halfStart = some h →
      (i.points = 0 → h + 2 * i.tHalf / 3 * 1000 ≤ s0.now → exec (.cycleSample t u ib) s = .next { s0 with
        ins := { i with samplesU := us, samplesI := is, points := 1 }, htr := { s0.htr with window := true } }) ∧
      (i.points = 1 → h + 5 * i.tHalf / 6 * 1000 ≤ s0.now → exec (.cycleSample t u ib) s = .next { s0 with
        ins := { i with samplesU := us, samplesI := is, points := 2 } }) ∧
      (i.points = 2 → ends ≤ s0.now → i.half = .positive → ∃ q, exec (.halfEnd t u ib) s = .next q ∧
        q.ins = { i with samplesU := us, samplesI := is, points := 0, half := .negative, halfStart := some ends
                         source := if i.epochState = .injecting then .negative else .off } ∧
        q.htr.window = false ∧ RestKept s0 q ∧ q.epi = s0.epi ∧ q.ptb = s0.ptb ∧ q.shu = s0.shu ∧ q.dmu = s0.dmu ∧
        q.dli = s0.dli ∧ q.flt = s0.flt ∧ q.vlk = s0.vlk ∧ ZonesKept s0.cfg.doseLimit s0.htr.zones q.htr.zones) ∧
      (∀ x, s0.stc.op = .session → i.points = 2 → ends ≤ s0.now → i.half = .negative → i.epochState = .injecting →
        trackStep i.busTrack (j.cycleBus s0.trm.inUse) = .accepted x → ∃ q, exec (.halfEnd t u ib) s = .next q ∧
        EpochAccepted s0 track x q ∧ (i.resend = true → q.dli.queue.epoch = none)) ∧
      (∀ e, i.points = 2 → ends ≤ s0.now → i.half = .negative → i.epochState = .injecting →
        trackStep i.busTrack (j.cycleBus s0.trm.inUse) = .held e → i.cycleCount < 6 → ∃ q,
        exec (.halfEnd t u ib) s = .next q ∧ q.ins.epochState = .injecting ∧ q.ins.cycleCount = i.cycleCount + 1 ∧
        q.ins.busTrack = e ∧ q.ins.half = .positive ∧ q.ins.halfStart = some ends ∧ q.ins.source = .positive ∧
        q.ins.branchTrack = track ∧ q.ins.cycleRecord = record ∧
        q.ins.points = 0 ∧ q.ins.samplesU = [] ∧ q.ins.samplesI = [] ∧ q.htr.window = false ∧ RestKept s0 q ∧ q.epi = s0.epi ∧
        q.ptb = s0.ptb ∧ q.shu = s0.shu ∧ q.dli = s0.dli ∧ q.flt = s0.flt ∧ q.vlk = s0.vlk) ∧
      (i.points = 2 → ends ≤ s0.now → i.half = .negative → i.epochState = .observing → ∃ q,
        exec (.halfEnd t u ib) s = .next q ∧ q.ins.epochState = .observing ∧ q.ins.branchTrack = track ∧
        q.ins.cycleRecord = record ∧ q.ins.source = .off ∧ q.ins.points = 0 ∧ q.ins.samplesU = [] ∧ q.ins.samplesI = [] ∧
        q.ins.branchRecord = i.branchRecord ∧ q.ins.busRecord = i.busRecord ∧ q.ins.lossDeadline = i.lossDeadline ∧
        (i.cycleCount < 6 → q.ins.cycleCount = i.cycleCount + 1 ∧ q.ins.halfStart = some ends ∧ q.ins.half = .positive) ∧
        (6 ≤ i.cycleCount → q.ins.cycleCount = i.cycleCount ∧ q.ins.halfStart = none) ∧ q.htr.window = false ∧
        RestKept s0 q ∧ q.epi = s0.epi ∧ q.ptb = s0.ptb ∧ q.shu = s0.shu ∧ q.dli = s0.dli ∧ q.flt = s0.flt ∧
        q.vlk = s0.vlk) ∧
      (∀ e, i.points = 2 → ends ≤ s0.now → i.half = .negative → i.epochState = .injecting →
        trackStep i.busTrack (j.cycleBus s0.trm.inUse) = .held e → 6 ≤ i.cycleCount → s0.stc.op = .session → ∃ q,
        exec (.halfEnd t u ib) s = .next q ∧ (i.resend = true → q.dli.queue.epoch = none) ∧
        EpochUnsettled s0 track (match j.cycleBus s0.trm.inUse with
          | some x => x
          | none => match i.lastEstimate with
            | some x => x
            | none => 65535) q)

/-- A meter sample (R117 to R119, R121, R123, R124), whichever of its five commands brings it: the sample becomes the latest,
the next period begins, a slot asked for begins with it, and the presence is judged, a report that no state acts on included;
outside SESSION nothing else happens but the judging of a slot; in SESSION its energy, or for a slot sample the held units, is
added, the interval's count rises, the setpoint ramps and the draw is supervised (R46, R48, R49): an excluded sample lowers the
exclusion count alone, one at or below the bound clears the count and the wait, one above it raises the count unless the wait is
set. A slot reading within 50 cA becomes the offset; another raises METER_CAL, which under the stop policy halts from LISTENING,
LINKED and SESSION alone, and closes an open session with that fault. That CALIBRATE METER's record takes the place of one that
stands in the slot is the model's choice, log 42. That five commands are one completion, from which the next period starts, is
the model's choice, log 15, that the ranges apply before the gains alone is log 38, and that the acceptance goes out as a mark,
1 for accepted, is log 46. That the latest sample keeps its currents after the gains is the model's choice, log 47. -/
def Obligations.MeterSamplesTaken : Prop :=
  ∀ c ∈ sampleCommands, ∀ (t p : Nat) (m : MeterInputs) (s : State), let s0 := elapse t s
    s0.stc.op ≠ .start → s0.mtr.periodEnd = some p → p ≤ s0.now →
      let g := s0.trm.inUse
      let x : MeterSample :=
        { voltage := (max 0 (min m.voltage 10000)).toNat
          total := max (-32768) (min m.total 32767) * g.totalGain / 10000
          heater := max (-32768) (min m.heater 32767) * g.heaterGain / 10000
          corrected := max (-32768) (min m.total 32767) * g.totalGain / 10000 - s0.mtr.offset }
      let ut := x.voltage * x.corrected.toNat
      let uh := min (x.voltage * x.heater.toNat) ut
      let bound : Int := ((s0.shu.limit + s0.cfg.tolerance) * 10 : Nat)
      let ramped := if s0.shu.setpoint < s0.dmu.chargerAllow then min (s0.shu.setpoint + 50) s0.dmu.chargerAllow
        else s0.shu.setpoint
      let fits := -50 ≤ x.total ∧ x.total ≤ 50
      let rises := s0.mtr.presence = .absent ∧ s0.cfg.busThreshold ≤ x.voltage ∨
        s0.mtr.presence = .present ∧ x.voltage < s0.cfg.busThreshold
      let told := rises ∧ 3 ≤ s0.mtr.run
      let acted := told ∧ (s0.mtr.presence = .absent ∧ s0.stc.op = .ready ∨
        s0.mtr.presence = .present ∧ s0.stc.op.takesFrames = true)
      let run := if told then 0 else if rises then s0.mtr.run + 1 else 0
      let presence := if told then (if s0.mtr.presence = .absent then .present else .absent) else s0.mtr.presence
      (s0.stc.op ≠ .session → s0.mtr.cal ≠ .shorted → ¬ acted → exec (c t m) s = .next { s0 with mtr := { s0.mtr with
        latest := some x, presence := presence, run := run, periodEnd := some (s0.now + 250000)
        cal := if s0.mtr.cal = .pending then .shorted else s0.mtr.cal, overtaken := none } }) ∧
      (s0.stc.op = .session → s0.mtr.cal ≠ .shorted → ¬ acted → s0.mtr.interval.count < 239 →
        x.corrected ≤ bound ∨ 0 < s0.shu.exclusion ∨ s0.shu.overCount < 3 ∨ s0.shu.overWait = true →
        ∃ q, exec (c t m) s = .next q ∧ RestKept { s0 with mtr := q.mtr } q ∧ q.ptb = s0.ptb ∧ q.ins = s0.ins ∧
        q.epi = s0.epi ∧ q.dmu = s0.dmu ∧ q.htr = s0.htr ∧ q.dli = s0.dli ∧ q.flt = s0.flt ∧ q.vlk = s0.vlk ∧
        q.mtr = { s0.mtr with
          latest := some x, presence := presence, run := run, periodEnd := some (s0.now + 250000), overtaken := none
          cal := if s0.mtr.cal = .pending then .shorted else s0.mtr.cal
          heldHeat := uh, heldCharge := ut - uh
          interval := { s0.mtr.interval with
            heatAcc := s0.mtr.interval.heatAcc + uh, chargeAcc := s0.mtr.interval.chargeAcc + (ut - uh)
            count := s0.mtr.interval.count + 1, reverse := s0.mtr.interval.reverse || decide (x.corrected < 0) } } ∧
        q.shu.limit = s0.shu.limit ∧ q.shu.intent = s0.shu.intent ∧ q.shu.record = s0.shu.record ∧
        q.shu.exclusion = s0.shu.exclusion - 1 ∧ q.shu.setpoint = ramped ∧
        (0 < s0.shu.exclusion → q.shu.overCount = s0.shu.overCount ∧ q.shu.overWait = s0.shu.overWait) ∧
        (s0.shu.exclusion = 0 → x.corrected ≤ bound → q.shu.overCount = 0 ∧ q.shu.overWait = false) ∧
        (s0.shu.exclusion = 0 → bound < x.corrected → q.shu.overWait = s0.shu.overWait ∧
          q.shu.overCount = (if s0.shu.overWait then s0.shu.overCount else s0.shu.overCount + 1))) ∧
      (s0.stc.op = .session → s0.mtr.cal = .shorted → ¬ acted → s0.mtr.interval.count < 239 → ∃ q,
        exec (c t m) s = .next q ∧ q.mtr.latest = some x ∧ q.mtr.cal = .idle ∧ q.mtr.periodEnd = some (s0.now + 250000) ∧
        q.vlk.inProgress = none ∧ q.mtr.heldHeat = s0.mtr.heldHeat ∧ q.mtr.heldCharge = s0.mtr.heldCharge ∧
        (fits → q.mtr.offset = x.total ∧ q.flt = s0.flt) ∧
        (¬ fits → q.mtr.offset = s0.mtr.offset ∧ FaultRaised .meterCal (.number x.total) s0 q) ∧
        (fits ∨ s0.cfg.policies.meterCal = false → RestKept { s0 with mtr := q.mtr } q ∧ q.mtr.run = run ∧
          q.mtr.presence = presence ∧
          q.mtr.lifetime = s0.mtr.lifetime ∧ q.shu = { s0.shu with setpoint := ramped, exclusion := s0.shu.exclusion - 1 } ∧
          q.mtr.interval = { s0.mtr.interval with
            heatAcc := s0.mtr.interval.heatAcc + s0.mtr.heldHeat
            chargeAcc := s0.mtr.interval.chargeAcc + s0.mtr.heldCharge
            count := s0.mtr.interval.count + 1, estimated := true }) ∧
        (∀ o, ¬ fits → s0.cfg.policies.meterCal = true → s0.ses.openRecord = some o → q.stc.op = .halted ∧
          q.stc.contactor = false ∧ q.ses.openRecord = none ∧ ∃ k, q.ses.log = s0.ses.log ++ [k] ∧
            k.reason = .fault ∧ k.faultCode = some .meterCal ∧ k.record.number = o.number) ∧
        (∀ tag, s0.vlk.inProgress = some tag → q.vlk.slot = some
          { tag := tag, code := 0x0E#8, result := .done, clampMask := 0
            data := wordInt x.total ++ wordInt q.mtr.offset ++ wordMark (decide fits) })) ∧
      (s0.stc.op ≠ .session → s0.mtr.cal = .shorted → ¬ acted → ∃ q, exec (c t m) s = .next q ∧
        q.mtr.cal = .idle ∧ q.mtr.presence = presence ∧ q.mtr.run = run ∧ q.mtr.latest = some x ∧
        q.mtr.periodEnd = some (s0.now + 250000) ∧ q.vlk.inProgress = none ∧
        (fits → q.mtr.offset = x.total ∧ q.flt = s0.flt ∧ q.stc = s0.stc) ∧
        (¬ fits → q.mtr.offset = s0.mtr.offset ∧ FaultRaised .meterCal (.number x.total) s0 q ∧
          (s0.cfg.policies.meterCal = true → s0.stc.op = .linked ∨ s0.stc.op = .listening → q.stc.op = .halted) ∧
          (s0.cfg.policies.meterCal = false ∨ s0.stc.op = .ready ∨ s0.stc.op = .halted → q.stc = s0.stc ∧ q.dli = s0.dli)) ∧
        (∀ tag, s0.vlk.inProgress = some tag → q.vlk.slot = some
          { tag := tag, code := 0x0E#8, result := .done, clampMask := 0
            data := wordInt x.total ++ wordInt q.mtr.offset ++ wordMark (decide fits) }))

/-- What a sample's completion brings in SESSION (R48, R50, R118, R126, R128, R129, R136): the 240th sample ends the interval,
its whole milliwatt-hours credited to the record and the lifetime counter and the snapshot written, and the next interval's band
is decided by the depot load, the peers' reserved amounts and the draw limit against the available current; the delivered
energy, the demands and the weight follow, and a change of own demand or weight is handed to the grant, limit and intent, and
the split (R30, R31, R37, R55, R56, R65); the fourth sample over the bound raises OVERDRAW, which halts under the stop policy
and waits under the continue policy, at an interval's end too. The 240th sample that is also a slot sample whose reading is
refused ends the interval all the same, and METER_CAL then halts under the stop policy alone (R123). A sample that halts, or
reports the bus lost, closes the session with its interval credited once: the 240th's by the interval's end, and nothing after
it, and any other's as the partial interval, its own energy in it (R118, R127). That five commands are one completion is the
model's choice, log 15; that the delivered energy is the sum of R55 whole, beyond the range that R53 gives it too, is its
choice, log 36; and that the ranges of R117 apply before the gains alone, in the energy credited and in OVERDRAW's detail, is
log 38. That the latest sample keeps its currents after the gains is the model's choice, log 47. -/
def Obligations.IntervalAndOverdrawTaken : Prop :=
  ∀ c ∈ sampleCommands, ∀ (t p : Nat) (m : MeterInputs) (s : State), let s0 := elapse t s
    s0.stc.op = .session → s0.mtr.periodEnd = some p → p ≤ s0.now →
      let x := sampleOf s0.trm.inUse s0.mtr.offset m
      let bound : Int := ((s0.shu.limit + s0.cfg.tolerance) * 10 : Nat)
      let exceeds := s0.mtr.cal ≠ .shorted ∧ s0.shu.exclusion = 0 ∧ bound < x.corrected ∧ s0.shu.overWait = false ∧
        3 ≤ s0.shu.overCount
      let lost := s0.mtr.presence = .present ∧ x.voltage < s0.cfg.busThreshold ∧ 3 ≤ s0.mtr.run
      let supervised := (s0.shu.ramp s0.dmu.chargerAllow).supervise (decide (s0.mtr.cal = .shorted)) x.corrected bound
      let ended : Interval := (s0.mtr.accumulate (decide (s0.mtr.cal = .shorted)) x).interval
      let fits := -50 ≤ x.total ∧ x.total ≤ 50
      let refused := s0.mtr.cal = .shorted ∧ ¬ fits
      let judged := fun (q : State) => s0.mtr.cal = .shorted → q.mtr.cal = .idle ∧ q.vlk.inProgress = none ∧
        q.mtr.offset = (if fits then x.total else s0.mtr.offset) ∧
        ∀ tag, s0.vlk.inProgress = some tag → q.vlk.slot = some
          { tag := tag, code := 0x0E#8, result := .done, clampMask := 0
            data := wordInt x.total ++ wordInt q.mtr.offset ++ wordMark (decide fits) }
      let closed := fun (q : State) (reason : CloseReason) (fault : Option FaultCode) => ∀ o, s0.ses.openRecord = some o →
        q.mtr.lifetime = s0.mtr.lifetime + (creditOf ended o).1 + (creditOf ended o).2 ∧
        q.ses.log = s0.ses.log ++
          [closeRecord { o.credit ended with peak := s0.shu.peak } (clock s0) q.mtr.lifetime reason fault false] ∧
        q.ses.openRecord = none ∧ q.ses.snapshot = none
      let left := fun (q : State) (op : OpState) => q.stc.op = op ∧ q.stc.contactor = false ∧ q.shu.limit = 0 ∧
        q.shu.intent = 0 ∧ q.shu.enable = false ∧ q.mtr.interval = Interval.none ∧ q.mtr.latest = some x
      (∀ o, s0.ses.openRecord = some o → (refused → s0.cfg.policies.meterCal = false) →
        (exceeds → s0.cfg.policies.overdraw = false) → ¬ lost → 239 ≤ s0.mtr.interval.count → ∃ q, exec (c t m) s = .next q ∧
        q.ses.openRecord = some { o.credit ended with peak := s0.shu.peak } ∧
        q.mtr.lifetime = s0.mtr.lifetime + (creditOf ended o).1 + (creditOf ended o).2 ∧
        q.ses.snapshot = some { record := { o.credit ended with peak := s0.shu.peak }, time := clock s0,
                                lifetime := q.mtr.lifetime } ∧
        q.mtr.interval.heatAcc = ended.heatAcc % 14400 ∧ q.mtr.interval.chargeAcc = ended.chargeAcc % 14400 ∧
        q.mtr.interval.count = 0 ∧ q.mtr.interval.number = min (s0.mtr.interval.number + 1) 65535 ∧
        q.mtr.interval.estimated = false ∧ q.mtr.interval.reverse = false ∧
        (let a := q.shu.record.available
        let p := ((s0.ptb.entries.map (fun e => max e.share.limit e.share.intent)).sum + q.shu.limit) * 1000 / a
        q.mtr.interval.band = if a = 0 then .peak else if p < s0.cfg.lowBand then .low
          else if s0.cfg.peakBand ≤ p then .peak else .normal) ∧
        q.dmu.delivered = deliveredOf q.ses.openRecord ∧ q.dmu.targetMet = targetMetOf s0.dmu.target q.dmu.delivered ∧
        q.dmu.chargerDemand = chargerDemandOf s0.cfg s0.dmu.target q.dmu.targetMet (bandOf (tMinOf s0.htr.zones)) ∧
        q.dmu.heaterDemand = ratedSum Zone.asks s0.htr.zones s0.cfg.ratings ∧
        q.dmu.ownDemand = min s0.cfg.ist (q.dmu.chargerDemand + q.dmu.heaterDemand) ∧
        q.dmu.weight = weightOf s0.cfg.irating s0.dmu.target q.dmu.delivered q.dmu.targetMet s0.dmu.departure (clock s0)
          (weightVoltage s0.cfg (some x)) ∧
        DemandSettled (FiguresMoved s0 q)
          { s0 with shu := if exceeds then { supervised with overCount := 0, overWait := true } else supervised } q ∧
        (exceeds → FaultRaised .overdraw (.number x.corrected) s0 q) ∧
        (refused → FaultRaised .meterCal (.number x.total) s0 q) ∧ (¬ exceeds → ¬ refused → q.flt = s0.flt) ∧ judged q ∧
        q.stc = s0.stc ∧ q.ses.log = s0.ses.log ∧ q.ptb = s0.ptb ∧ q.cfg = s0.cfg ∧ q.now = s0.now ∧ q.pending = s0.pending) ∧
      (exceeds → s0.cfg.policies.overdraw = true → ∃ q, exec (c t m) s = .next q ∧
        left q .halted ∧ closed q .fault (some .overdraw) ∧ FaultRaised .overdraw (.number x.corrected) s0 q ∧
        q.ses.openRecord.isSome = false) ∧
      (refused → s0.cfg.policies.meterCal = true → ¬ lost → ∃ q, exec (c t m) s = .next q ∧
        left q .halted ∧ closed q .fault (some .meterCal) ∧ FaultRaised .meterCal (.number x.total) s0 q ∧ judged q) ∧
      (lost → (exceeds → s0.cfg.policies.overdraw = false) → ∃ q, exec (c t m) s = .next q ∧
        left q .ready ∧ closed q .busLost none ∧ q.mtr.offset = s0.mtr.offset ∧ q.mtr.cal = .idle ∧
        (exceeds → FaultRaised .overdraw (.number x.corrected) s0 q) ∧ (¬ exceeds → q.flt = s0.flt)) ∧
      (exceeds → s0.cfg.policies.overdraw = false → ¬ lost → s0.mtr.interval.count < 239 → ∃ q,
        exec (c t m) s = .next q ∧ q.stc = s0.stc ∧ FaultRaised .overdraw (.number x.corrected) s0 q ∧ q.shu.overCount = 0 ∧
        q.shu.overWait = true ∧ q.shu.limit = s0.shu.limit ∧ q.ses = s0.ses)

/-- What four samples in a row bring from the bus (R47, R121, R122, R124, R134, R159, R162): present, in READY, makes LISTENING
with its window, an empty queue and the conversions running, and with the fault input asserted CONVERTER and HALTED; lost, in
LISTENING, LINKED and SESSION, makes READY with LEAVE queued, the table empty and the presence ABSENT; a slot running then is
judged in READY, and with a session abandoned with its close. The loss that a period abandoned by the session's opening reports
at that very moment closes the session with BUS_LOST and nothing credited (the model's reading of R121 with R134, log 31). That
CALIBRATE METER's record takes the place of one that stands in the slot is its choice, log 42. That five commands are one
completion is the model's choice, log 15, and that the ranges of R117 apply before the gains alone, in METER_CAL's detail too,
is log 38. That the latest sample keeps its currents after the gains is the model's choice, log 47. -/
def Obligations.BusReportsTaken : Prop :=
  ∀ c ∈ sampleCommands, ∀ (t p : Nat) (m : MeterInputs) (s : State), let s0 := elapse t s
    let x := sampleOf s0.trm.inUse s0.mtr.offset m
    let bound : Int := ((s0.shu.limit + s0.cfg.tolerance) * 10 : Nat)
    let exceeds := s0.mtr.cal ≠ .shorted ∧ s0.shu.exclusion = 0 ∧ bound < x.corrected ∧ s0.shu.overWait = false ∧
      3 ≤ s0.shu.overCount
    let lost := s0.mtr.presence = .present ∧ x.voltage < s0.cfg.busThreshold ∧ 3 ≤ s0.mtr.run
    let leave : Option TxEntry := some { content := .none, failed := 0 }
    let readied := fun (q : State) => q.stc.op = .ready ∧ q.stc.listenWindow = none ∧ q.mtr.presence = .absent ∧
      q.mtr.run = 0 ∧ q.htr.cycleStart = none ∧ q.ptb.entries = [] ∧ q.ptb.unlisted = none ∧
      q.ptb.feeder = s0.cfg.feederLimit ∧ q.dli.queue.leave = leave ∧ q.dli.queue.finding = none ∧
      q.dli.queue.epoch = none ∧ q.dli.queue.announce = none ∧ q.dli.announce = none ∧ q.shu.limit = 0 ∧ q.shu.intent = 0 ∧
      q.trc = s0.trc ∧ q.cfg = s0.cfg ∧ q.trm = s0.trm ∧ q.now = s0.now ∧ q.pending = s0.pending
    let closed := fun (q : State) (o : OpenRecord) => q.stc.contactor = false ∧ q.ses.openRecord = none ∧
      q.ses.snapshot = none ∧ ∃ k, q.ses.log = s0.ses.log ++ [k] ∧ k.reason = .busLost ∧ k.faultCode = none ∧
        k.record.number = o.number
    (s0.mtr.periodEnd = some p → p ≤ s0.now →
      (s0.stc.op = .ready → QuietSafe s0 → s0.mtr.cal ≠ .shorted → s0.mtr.presence = .absent →
        s0.cfg.busThreshold ≤ x.voltage → 3 ≤ s0.mtr.run → ∃ q, exec (c t m) s = .next q ∧
        q.mtr.presence = .present ∧ q.mtr.run = 0 ∧ q.mtr.latest = some x ∧ q.htr.cycleStart = some s0.now ∧
        q.htr.converted = ⟨0, 0, 0, 0⟩ ∧ q.dli.backoff = none ∧ q.shu.record.grant = 0 ∧ q.shu.record.zeroCause = .noSession ∧
        q.vlk.marks.stateChanged = true ∧ q.ins = s0.ins ∧ q.ses = s0.ses ∧ q.trc = s0.trc ∧ q.cfg = s0.cfg ∧
        q.now = s0.now ∧ q.pending = s0.pending ∧
        (s0.shu.faultInput = false → q.dli.queue = TxQueue.empty ∧ q.dli.framerUntil = none ∧ s0.now ≤ q.dli.framerFrom ∧
          q.stc = { s0.stc with op := .listening, listenWindow := some (s0.now + 2 * s0.cfg.ta * 1000) } ∧
          q.ptb = s0.ptb ∧ q.epi = s0.epi ∧ q.flt = s0.flt) ∧
        (s0.shu.faultInput = true → q.dli.queue = { TxQueue.empty with leave := leave } ∧
          q.stc = { s0.stc with op := .halted, listenWindow := none } ∧
          LastFault .converter (.number s0.shu.setpoint) q ∧ q.vlk.marks.fault = true ∧
          SameEntries q.ptb.entries s0.ptb.entries)) ∧
      (s0.stc.op.takesFrames = true → (s0.stc.op = .session → ¬ exceeds) → s0.mtr.cal ≠ .shorted → lost → ∃ q,
        exec (c t m) s = .next q ∧ readied q ∧ q.mtr.latest = some x ∧ q.flt = s0.flt ∧
        (∀ o, s0.stc.op = .session → s0.ses.openRecord = some o → closed q o)) ∧
      (s0.stc.op = .listening ∨ s0.stc.op = .linked → s0.mtr.cal = .shorted → lost → ∃ q,
        exec (c t m) s = .next q ∧ readied q ∧ q.mtr.latest = some x ∧ q.mtr.cal = .idle ∧ q.vlk.inProgress = none ∧
        (-50 ≤ x.total → x.total ≤ 50 → q.mtr.offset = x.total ∧ q.flt = s0.flt) ∧
        (x.total < -50 ∨ 50 < x.total → q.mtr.offset = s0.mtr.offset ∧ LastFault .meterCal (.number x.total) q) ∧
        (∀ tag, s0.vlk.inProgress = some tag → ∃ k, q.vlk.slot = some k ∧ k.tag = tag ∧ k.result = .done)) ∧
      (∀ o, s0.stc.op = .session → s0.mtr.cal = .shorted → lost → s0.ses.openRecord = some o → ∃ q,
        exec (c t m) s = .next q ∧ readied q ∧ closed q o ∧ q.mtr.latest = some x ∧ q.mtr.cal = .idle ∧
        q.mtr.offset = s0.mtr.offset ∧ q.flt = s0.flt ∧ q.vlk.inProgress = none ∧
        (∀ tag, s0.vlk.inProgress = some tag → ∃ k, q.vlk.slot = some k ∧ k.tag = tag ∧ k.result = .abandoned))) ∧
    (s0.stc.op = .session → s0.mtr.periodEnd = some p → s0.now < p → s0.mtr.overtaken = some s0.now →
      (∀ o, lost → s0.ses.openRecord = some o → ∃ q, exec (c t m) s = .next q ∧ readied q ∧ closed q o ∧
        q.mtr.latest = s0.mtr.latest ∧ q.mtr.offset = s0.mtr.offset ∧ q.mtr.cal = .idle ∧ q.flt = s0.flt ∧
        (s0.mtr.interval.count = 0 → q.mtr.lifetime = s0.mtr.lifetime ∧ ∃ k, q.ses.log.getLast? = some k ∧
          k.record.counters = o.counters ∧ k.record.intervalCount = o.intervalCount)) ∧
      (¬ lost → exec (c t m) s = .next { s0 with mtr := { s0.mtr with overtaken := none } }))

/-- The converter's fault input (R47): its level is kept; its assertion in LISTENING, LINKED and SESSION raises CONVERTER with the
setpoint and halts. -/
def Obligations.ConverterInputTaken : Prop :=
  ∀ (t : Nat) (b : Bool) (s : State), let s0 := elapse t s
    (b = false ∨ s0.shu.faultInput = true ∨ s0.stc.op.takesFrames = false →
      exec (.converterFaultInput t b) s = .next { s0 with shu := { s0.shu with faultInput := b } }) ∧
    (b = true → s0.shu.faultInput = false → s0.stc.op.takesFrames = true → ∃ q, exec (.converterFaultInput t b) s = .next q ∧
      q.stc.op = .halted ∧ FaultRaised .converter (.number s0.shu.setpoint) s0 q ∧ q.shu.faultInput = true ∧ q.shu.limit = 0 ∧
      q.dli.queue.leave = some { content := .none, failed := 0 } ∧ q.cfg = s0.cfg ∧ q.now = s0.now ∧ q.pending = s0.pending)
end

