-- ==== Sys2Proof/Laws/State.lean ====
section
/-! SUPPORT. The frames of the shared operations: for every operation over the whole state, each field it leaves alone. -/

namespace Sys2Proof.Machine

variable (s : State)

@[simp] theorem passTime_cfg (d : Nat) : (passTime d s).cfg = s.cfg := rfl
@[simp] theorem passTime_shu (d : Nat) : (passTime d s).shu = s.shu := rfl
@[simp] theorem passTime_dmu (d : Nat) : (passTime d s).dmu = s.dmu := rfl
@[simp] theorem passTime_ins (d : Nat) : (passTime d s).ins = s.ins := rfl
@[simp] theorem passTime_epi (d : Nat) : (passTime d s).epi = s.epi := rfl
@[simp] theorem passTime_trc (d : Nat) : (passTime d s).trc = s.trc := rfl
@[simp] theorem passTime_mtr (d : Nat) : (passTime d s).mtr = s.mtr := rfl
@[simp] theorem passTime_ses (d : Nat) : (passTime d s).ses = s.ses := rfl
@[simp] theorem passTime_flt (d : Nat) : (passTime d s).flt = s.flt := rfl
@[simp] theorem passTime_vlk (d : Nat) : (passTime d s).vlk = s.vlk := rfl
@[simp] theorem passTime_trm (d : Nat) : (passTime d s).trm = s.trm := rfl
@[simp] theorem passTime_dli (d : Nat) : (passTime d s).dli = s.dli := rfl
@[simp] theorem passTime_pending (d : Nat) : (passTime d s).pending = s.pending := rfl

@[simp] theorem post_now (e : Event) : (post e s).now = s.now := rfl
@[simp] theorem post_cfg (e : Event) : (post e s).cfg = s.cfg := rfl
@[simp] theorem post_ptb (e : Event) : (post e s).ptb = s.ptb := rfl
@[simp] theorem post_shu (e : Event) : (post e s).shu = s.shu := rfl
@[simp] theorem post_dmu (e : Event) : (post e s).dmu = s.dmu := rfl
@[simp] theorem post_htr (e : Event) : (post e s).htr = s.htr := rfl
@[simp] theorem post_ins (e : Event) : (post e s).ins = s.ins := rfl
@[simp] theorem post_epi (e : Event) : (post e s).epi = s.epi := rfl
@[simp] theorem post_trc (e : Event) : (post e s).trc = s.trc := rfl
@[simp] theorem post_mtr (e : Event) : (post e s).mtr = s.mtr := rfl
@[simp] theorem post_ses (e : Event) : (post e s).ses = s.ses := rfl
@[simp] theorem post_stc (e : Event) : (post e s).stc = s.stc := rfl
@[simp] theorem post_flt (e : Event) : (post e s).flt = s.flt := rfl
@[simp] theorem post_trm (e : Event) : (post e s).trm = s.trm := rfl
@[simp] theorem post_dli (e : Event) : (post e s).dli = s.dli := rfl
@[simp] theorem post_pending (e : Event) : (post e s).pending = s.pending := rfl

@[simp] theorem queueFrame_now (k : FrameKind) (c : TxContent) : (queueFrame k c s).now = s.now := rfl
@[simp] theorem queueFrame_cfg (k : FrameKind) (c : TxContent) : (queueFrame k c s).cfg = s.cfg := rfl
@[simp] theorem queueFrame_ptb (k : FrameKind) (c : TxContent) : (queueFrame k c s).ptb = s.ptb := rfl
@[simp] theorem queueFrame_shu (k : FrameKind) (c : TxContent) : (queueFrame k c s).shu = s.shu := rfl
@[simp] theorem queueFrame_dmu (k : FrameKind) (c : TxContent) : (queueFrame k c s).dmu = s.dmu := rfl
@[simp] theorem queueFrame_htr (k : FrameKind) (c : TxContent) : (queueFrame k c s).htr = s.htr := rfl
@[simp] theorem queueFrame_ins (k : FrameKind) (c : TxContent) : (queueFrame k c s).ins = s.ins := rfl
@[simp] theorem queueFrame_epi (k : FrameKind) (c : TxContent) : (queueFrame k c s).epi = s.epi := rfl
@[simp] theorem queueFrame_trc (k : FrameKind) (c : TxContent) : (queueFrame k c s).trc = s.trc := rfl
@[simp] theorem queueFrame_mtr (k : FrameKind) (c : TxContent) : (queueFrame k c s).mtr = s.mtr := rfl
@[simp] theorem queueFrame_ses (k : FrameKind) (c : TxContent) : (queueFrame k c s).ses = s.ses := rfl
@[simp] theorem queueFrame_stc (k : FrameKind) (c : TxContent) : (queueFrame k c s).stc = s.stc := rfl
@[simp] theorem queueFrame_flt (k : FrameKind) (c : TxContent) : (queueFrame k c s).flt = s.flt := rfl
@[simp] theorem queueFrame_vlk (k : FrameKind) (c : TxContent) : (queueFrame k c s).vlk = s.vlk := rfl
@[simp] theorem queueFrame_trm (k : FrameKind) (c : TxContent) : (queueFrame k c s).trm = s.trm := rfl
@[simp] theorem queueFrame_pending (k : FrameKind) (c : TxContent) : (queueFrame k c s).pending = s.pending := rfl

@[simp] theorem withdrawEpoch_now : (withdrawEpoch s).now = s.now := rfl
@[simp] theorem withdrawEpoch_cfg : (withdrawEpoch s).cfg = s.cfg := rfl
@[simp] theorem withdrawEpoch_ptb : (withdrawEpoch s).ptb = s.ptb := rfl
@[simp] theorem withdrawEpoch_shu : (withdrawEpoch s).shu = s.shu := rfl
@[simp] theorem withdrawEpoch_dmu : (withdrawEpoch s).dmu = s.dmu := rfl
@[simp] theorem withdrawEpoch_htr : (withdrawEpoch s).htr = s.htr := rfl
@[simp] theorem withdrawEpoch_ins : (withdrawEpoch s).ins = s.ins := rfl
@[simp] theorem withdrawEpoch_epi : (withdrawEpoch s).epi = s.epi := rfl
@[simp] theorem withdrawEpoch_trc : (withdrawEpoch s).trc = s.trc := rfl
@[simp] theorem withdrawEpoch_mtr : (withdrawEpoch s).mtr = s.mtr := rfl
@[simp] theorem withdrawEpoch_ses : (withdrawEpoch s).ses = s.ses := rfl
@[simp] theorem withdrawEpoch_stc : (withdrawEpoch s).stc = s.stc := rfl
@[simp] theorem withdrawEpoch_flt : (withdrawEpoch s).flt = s.flt := rfl
@[simp] theorem withdrawEpoch_vlk : (withdrawEpoch s).vlk = s.vlk := rfl
@[simp] theorem withdrawEpoch_trm : (withdrawEpoch s).trm = s.trm := rfl
@[simp] theorem withdrawEpoch_pending : (withdrawEpoch s).pending = s.pending := rfl

@[simp] theorem recordFault_now (c : FaultCode) (d : FaultDetail) : (recordFault c d s).now = s.now := rfl
@[simp] theorem recordFault_cfg (c : FaultCode) (d : FaultDetail) : (recordFault c d s).cfg = s.cfg := rfl
@[simp] theorem recordFault_ptb (c : FaultCode) (d : FaultDetail) : (recordFault c d s).ptb = s.ptb := rfl
@[simp] theorem recordFault_shu (c : FaultCode) (d : FaultDetail) : (recordFault c d s).shu = s.shu := rfl
@[simp] theorem recordFault_dmu (c : FaultCode) (d : FaultDetail) : (recordFault c d s).dmu = s.dmu := rfl
@[simp] theorem recordFault_htr (c : FaultCode) (d : FaultDetail) : (recordFault c d s).htr = s.htr := rfl
@[simp] theorem recordFault_ins (c : FaultCode) (d : FaultDetail) : (recordFault c d s).ins = s.ins := rfl
@[simp] theorem recordFault_epi (c : FaultCode) (d : FaultDetail) : (recordFault c d s).epi = s.epi := rfl
@[simp] theorem recordFault_trc (c : FaultCode) (d : FaultDetail) : (recordFault c d s).trc = s.trc := rfl
@[simp] theorem recordFault_mtr (c : FaultCode) (d : FaultDetail) : (recordFault c d s).mtr = s.mtr := rfl
@[simp] theorem recordFault_ses (c : FaultCode) (d : FaultDetail) : (recordFault c d s).ses = s.ses := rfl
@[simp] theorem recordFault_stc (c : FaultCode) (d : FaultDetail) : (recordFault c d s).stc = s.stc := rfl
@[simp] theorem recordFault_trm (c : FaultCode) (d : FaultDetail) : (recordFault c d s).trm = s.trm := rfl
@[simp] theorem recordFault_dli (c : FaultCode) (d : FaultDetail) : (recordFault c d s).dli = s.dli := rfl
@[simp] theorem recordFault_pending (c : FaultCode) (d : FaultDetail) : (recordFault c d s).pending = s.pending := rfl

@[simp] theorem emptyTable_now : (emptyTable s).now = s.now := rfl
@[simp] theorem emptyTable_cfg : (emptyTable s).cfg = s.cfg := rfl
@[simp] theorem emptyTable_shu : (emptyTable s).shu = s.shu := rfl
@[simp] theorem emptyTable_dmu : (emptyTable s).dmu = s.dmu := rfl
@[simp] theorem emptyTable_htr : (emptyTable s).htr = s.htr := rfl
@[simp] theorem emptyTable_ins : (emptyTable s).ins = s.ins := rfl
@[simp] theorem emptyTable_epi : (emptyTable s).epi = s.epi := rfl
@[simp] theorem emptyTable_trc : (emptyTable s).trc = s.trc := rfl
@[simp] theorem emptyTable_mtr : (emptyTable s).mtr = s.mtr := rfl
@[simp] theorem emptyTable_ses : (emptyTable s).ses = s.ses := rfl
@[simp] theorem emptyTable_stc : (emptyTable s).stc = s.stc := rfl
@[simp] theorem emptyTable_flt : (emptyTable s).flt = s.flt := rfl
@[simp] theorem emptyTable_vlk : (emptyTable s).vlk = s.vlk := rfl
@[simp] theorem emptyTable_trm : (emptyTable s).trm = s.trm := rfl
@[simp] theorem emptyTable_dli : (emptyTable s).dli = s.dli := rfl
@[simp] theorem emptyTable_pending : (emptyTable s).pending = s.pending := rfl

@[simp] theorem syncMarks_now : (syncMarks s).now = s.now := rfl
@[simp] theorem syncMarks_cfg : (syncMarks s).cfg = s.cfg := rfl
@[simp] theorem syncMarks_shu : (syncMarks s).shu = s.shu := rfl
@[simp] theorem syncMarks_dmu : (syncMarks s).dmu = s.dmu := rfl
@[simp] theorem syncMarks_htr : (syncMarks s).htr = s.htr := rfl
@[simp] theorem syncMarks_ins : (syncMarks s).ins = s.ins := rfl
@[simp] theorem syncMarks_epi : (syncMarks s).epi = s.epi := rfl
@[simp] theorem syncMarks_trc : (syncMarks s).trc = s.trc := rfl
@[simp] theorem syncMarks_mtr : (syncMarks s).mtr = s.mtr := rfl
@[simp] theorem syncMarks_ses : (syncMarks s).ses = s.ses := rfl
@[simp] theorem syncMarks_stc : (syncMarks s).stc = s.stc := rfl
@[simp] theorem syncMarks_flt : (syncMarks s).flt = s.flt := rfl
@[simp] theorem syncMarks_vlk : (syncMarks s).vlk = s.vlk := rfl
@[simp] theorem syncMarks_trm : (syncMarks s).trm = s.trm := rfl
@[simp] theorem syncMarks_dli : (syncMarks s).dli = s.dli := rfl
@[simp] theorem syncMarks_pending : (syncMarks s).pending = s.pending := rfl

@[simp] theorem refreshDemand_now : (refreshDemand s).now = s.now := rfl
@[simp] theorem refreshDemand_cfg : (refreshDemand s).cfg = s.cfg := rfl
@[simp] theorem refreshDemand_ptb : (refreshDemand s).ptb = s.ptb := rfl
@[simp] theorem refreshDemand_shu : (refreshDemand s).shu = s.shu := rfl
@[simp] theorem refreshDemand_htr : (refreshDemand s).htr = s.htr := rfl
@[simp] theorem refreshDemand_ins : (refreshDemand s).ins = s.ins := rfl
@[simp] theorem refreshDemand_epi : (refreshDemand s).epi = s.epi := rfl
@[simp] theorem refreshDemand_trc : (refreshDemand s).trc = s.trc := rfl
@[simp] theorem refreshDemand_mtr : (refreshDemand s).mtr = s.mtr := rfl
@[simp] theorem refreshDemand_ses : (refreshDemand s).ses = s.ses := rfl
@[simp] theorem refreshDemand_stc : (refreshDemand s).stc = s.stc := rfl
@[simp] theorem refreshDemand_flt : (refreshDemand s).flt = s.flt := rfl
@[simp] theorem refreshDemand_vlk : (refreshDemand s).vlk = s.vlk := rfl
@[simp] theorem refreshDemand_trm : (refreshDemand s).trm = s.trm := rfl
@[simp] theorem refreshDemand_dli : (refreshDemand s).dli = s.dli := rfl
@[simp] theorem refreshDemand_pending : (refreshDemand s).pending = s.pending := rfl

@[simp] theorem rereadDelivered_now : (rereadDelivered s).now = s.now := rfl
@[simp] theorem rereadDelivered_cfg : (rereadDelivered s).cfg = s.cfg := rfl
@[simp] theorem rereadDelivered_ptb : (rereadDelivered s).ptb = s.ptb := rfl
@[simp] theorem rereadDelivered_shu : (rereadDelivered s).shu = s.shu := rfl
@[simp] theorem rereadDelivered_htr : (rereadDelivered s).htr = s.htr := rfl
@[simp] theorem rereadDelivered_ins : (rereadDelivered s).ins = s.ins := rfl
@[simp] theorem rereadDelivered_epi : (rereadDelivered s).epi = s.epi := rfl
@[simp] theorem rereadDelivered_trc : (rereadDelivered s).trc = s.trc := rfl
@[simp] theorem rereadDelivered_mtr : (rereadDelivered s).mtr = s.mtr := rfl
@[simp] theorem rereadDelivered_ses : (rereadDelivered s).ses = s.ses := rfl
@[simp] theorem rereadDelivered_stc : (rereadDelivered s).stc = s.stc := rfl
@[simp] theorem rereadDelivered_flt : (rereadDelivered s).flt = s.flt := rfl
@[simp] theorem rereadDelivered_vlk : (rereadDelivered s).vlk = s.vlk := rfl
@[simp] theorem rereadDelivered_trm : (rereadDelivered s).trm = s.trm := rfl
@[simp] theorem rereadDelivered_dli : (rereadDelivered s).dli = s.dli := rfl
@[simp] theorem rereadDelivered_pending : (rereadDelivered s).pending = s.pending := rfl

@[simp] theorem reweigh_now : (reweigh s).now = s.now := rfl
@[simp] theorem reweigh_cfg : (reweigh s).cfg = s.cfg := rfl
@[simp] theorem reweigh_ptb : (reweigh s).ptb = s.ptb := rfl
@[simp] theorem reweigh_shu : (reweigh s).shu = s.shu := rfl
@[simp] theorem reweigh_htr : (reweigh s).htr = s.htr := rfl
@[simp] theorem reweigh_ins : (reweigh s).ins = s.ins := rfl
@[simp] theorem reweigh_epi : (reweigh s).epi = s.epi := rfl
@[simp] theorem reweigh_trc : (reweigh s).trc = s.trc := rfl
@[simp] theorem reweigh_mtr : (reweigh s).mtr = s.mtr := rfl
@[simp] theorem reweigh_ses : (reweigh s).ses = s.ses := rfl
@[simp] theorem reweigh_stc : (reweigh s).stc = s.stc := rfl
@[simp] theorem reweigh_flt : (reweigh s).flt = s.flt := rfl
@[simp] theorem reweigh_vlk : (reweigh s).vlk = s.vlk := rfl
@[simp] theorem reweigh_trm : (reweigh s).trm = s.trm := rfl
@[simp] theorem reweigh_dli : (reweigh s).dli = s.dli := rfl
@[simp] theorem reweigh_pending : (reweigh s).pending = s.pending := rfl

@[simp] theorem recomputeGrant_now : (recomputeGrant s).now = s.now := rfl
@[simp] theorem recomputeGrant_cfg : (recomputeGrant s).cfg = s.cfg := rfl
@[simp] theorem recomputeGrant_ptb : (recomputeGrant s).ptb = s.ptb := rfl
@[simp] theorem recomputeGrant_dmu : (recomputeGrant s).dmu = s.dmu := rfl
@[simp] theorem recomputeGrant_htr : (recomputeGrant s).htr = s.htr := rfl
@[simp] theorem recomputeGrant_ins : (recomputeGrant s).ins = s.ins := rfl
@[simp] theorem recomputeGrant_epi : (recomputeGrant s).epi = s.epi := rfl
@[simp] theorem recomputeGrant_trc : (recomputeGrant s).trc = s.trc := rfl
@[simp] theorem recomputeGrant_mtr : (recomputeGrant s).mtr = s.mtr := rfl
@[simp] theorem recomputeGrant_ses : (recomputeGrant s).ses = s.ses := rfl
@[simp] theorem recomputeGrant_stc : (recomputeGrant s).stc = s.stc := rfl
@[simp] theorem recomputeGrant_flt : (recomputeGrant s).flt = s.flt := rfl
@[simp] theorem recomputeGrant_vlk : (recomputeGrant s).vlk = s.vlk := rfl
@[simp] theorem recomputeGrant_trm : (recomputeGrant s).trm = s.trm := rfl
@[simp] theorem recomputeGrant_dli : (recomputeGrant s).dli = s.dli := rfl
@[simp] theorem recomputeGrant_pending : (recomputeGrant s).pending = s.pending := rfl

@[simp] theorem resplit_now : (resplit s).now = s.now := rfl
@[simp] theorem resplit_cfg : (resplit s).cfg = s.cfg := rfl
@[simp] theorem resplit_ptb : (resplit s).ptb = s.ptb := rfl
@[simp] theorem resplit_ins : (resplit s).ins = s.ins := rfl
@[simp] theorem resplit_epi : (resplit s).epi = s.epi := rfl
@[simp] theorem resplit_trc : (resplit s).trc = s.trc := rfl
@[simp] theorem resplit_mtr : (resplit s).mtr = s.mtr := rfl
@[simp] theorem resplit_ses : (resplit s).ses = s.ses := rfl
@[simp] theorem resplit_stc : (resplit s).stc = s.stc := rfl
@[simp] theorem resplit_flt : (resplit s).flt = s.flt := rfl
@[simp] theorem resplit_vlk : (resplit s).vlk = s.vlk := rfl
@[simp] theorem resplit_trm : (resplit s).trm = s.trm := rfl
@[simp] theorem resplit_dli : (resplit s).dli = s.dli := rfl
@[simp] theorem resplit_pending : (resplit s).pending = s.pending := rfl

@[simp] theorem answer_now (r : TermRecord) : (answer r s).now = s.now := rfl
@[simp] theorem answer_cfg (r : TermRecord) : (answer r s).cfg = s.cfg := rfl
@[simp] theorem answer_ptb (r : TermRecord) : (answer r s).ptb = s.ptb := rfl
@[simp] theorem answer_shu (r : TermRecord) : (answer r s).shu = s.shu := rfl
@[simp] theorem answer_dmu (r : TermRecord) : (answer r s).dmu = s.dmu := rfl
@[simp] theorem answer_htr (r : TermRecord) : (answer r s).htr = s.htr := rfl
@[simp] theorem answer_ins (r : TermRecord) : (answer r s).ins = s.ins := rfl
@[simp] theorem answer_epi (r : TermRecord) : (answer r s).epi = s.epi := rfl
@[simp] theorem answer_trc (r : TermRecord) : (answer r s).trc = s.trc := rfl
@[simp] theorem answer_mtr (r : TermRecord) : (answer r s).mtr = s.mtr := rfl
@[simp] theorem answer_ses (r : TermRecord) : (answer r s).ses = s.ses := rfl
@[simp] theorem answer_stc (r : TermRecord) : (answer r s).stc = s.stc := rfl
@[simp] theorem answer_flt (r : TermRecord) : (answer r s).flt = s.flt := rfl
@[simp] theorem answer_trm (r : TermRecord) : (answer r s).trm = s.trm := rfl
@[simp] theorem answer_dli (r : TermRecord) : (answer r s).dli = s.dli := rfl
@[simp] theorem answer_pending (r : TermRecord) : (answer r s).pending = s.pending := rfl

@[simp] theorem creditInterval_now : (creditInterval s).now = s.now := rfl
@[simp] theorem creditInterval_cfg : (creditInterval s).cfg = s.cfg := rfl
@[simp] theorem creditInterval_ptb : (creditInterval s).ptb = s.ptb := rfl
@[simp] theorem creditInterval_shu : (creditInterval s).shu = s.shu := rfl
@[simp] theorem creditInterval_dmu : (creditInterval s).dmu = s.dmu := rfl
@[simp] theorem creditInterval_htr : (creditInterval s).htr = s.htr := rfl
@[simp] theorem creditInterval_ins : (creditInterval s).ins = s.ins := rfl
@[simp] theorem creditInterval_epi : (creditInterval s).epi = s.epi := rfl
@[simp] theorem creditInterval_trc : (creditInterval s).trc = s.trc := rfl
@[simp] theorem creditInterval_stc : (creditInterval s).stc = s.stc := rfl
@[simp] theorem creditInterval_flt : (creditInterval s).flt = s.flt := rfl
@[simp] theorem creditInterval_vlk : (creditInterval s).vlk = s.vlk := rfl
@[simp] theorem creditInterval_trm : (creditInterval s).trm = s.trm := rfl
@[simp] theorem creditInterval_dli : (creditInterval s).dli = s.dli := rfl
@[simp] theorem creditInterval_pending : (creditInterval s).pending = s.pending := rfl

@[simp] theorem writeSnapshot_now : (writeSnapshot s).now = s.now := rfl
@[simp] theorem writeSnapshot_cfg : (writeSnapshot s).cfg = s.cfg := rfl
@[simp] theorem writeSnapshot_ptb : (writeSnapshot s).ptb = s.ptb := rfl
@[simp] theorem writeSnapshot_shu : (writeSnapshot s).shu = s.shu := rfl
@[simp] theorem writeSnapshot_dmu : (writeSnapshot s).dmu = s.dmu := rfl
@[simp] theorem writeSnapshot_htr : (writeSnapshot s).htr = s.htr := rfl
@[simp] theorem writeSnapshot_ins : (writeSnapshot s).ins = s.ins := rfl
@[simp] theorem writeSnapshot_epi : (writeSnapshot s).epi = s.epi := rfl
@[simp] theorem writeSnapshot_trc : (writeSnapshot s).trc = s.trc := rfl
@[simp] theorem writeSnapshot_mtr : (writeSnapshot s).mtr = s.mtr := rfl
@[simp] theorem writeSnapshot_stc : (writeSnapshot s).stc = s.stc := rfl
@[simp] theorem writeSnapshot_flt : (writeSnapshot s).flt = s.flt := rfl
@[simp] theorem writeSnapshot_vlk : (writeSnapshot s).vlk = s.vlk := rfl
@[simp] theorem writeSnapshot_trm : (writeSnapshot s).trm = s.trm := rfl
@[simp] theorem writeSnapshot_dli : (writeSnapshot s).dli = s.dli := rfl
@[simp] theorem writeSnapshot_pending : (writeSnapshot s).pending = s.pending := rfl

@[simp] theorem setOp_now (op : OpState) : (setOp op s).now = s.now := rfl
@[simp] theorem setOp_cfg (op : OpState) : (setOp op s).cfg = s.cfg := rfl
@[simp] theorem setOp_ptb (op : OpState) : (setOp op s).ptb = s.ptb := rfl
@[simp] theorem setOp_shu (op : OpState) : (setOp op s).shu = s.shu := rfl
@[simp] theorem setOp_dmu (op : OpState) : (setOp op s).dmu = s.dmu := rfl
@[simp] theorem setOp_htr (op : OpState) : (setOp op s).htr = s.htr := rfl
@[simp] theorem setOp_ins (op : OpState) : (setOp op s).ins = s.ins := rfl
@[simp] theorem setOp_epi (op : OpState) : (setOp op s).epi = s.epi := rfl
@[simp] theorem setOp_trc (op : OpState) : (setOp op s).trc = s.trc := rfl
@[simp] theorem setOp_mtr (op : OpState) : (setOp op s).mtr = s.mtr := rfl
@[simp] theorem setOp_ses (op : OpState) : (setOp op s).ses = s.ses := rfl
@[simp] theorem setOp_flt (op : OpState) : (setOp op s).flt = s.flt := rfl
@[simp] theorem setOp_trm (op : OpState) : (setOp op s).trm = s.trm := rfl
@[simp] theorem setOp_dli (op : OpState) : (setOp op s).dli = s.dli := rfl
@[simp] theorem setOp_pending (op : OpState) : (setOp op s).pending = s.pending := rfl

@[simp] theorem leaveBus_now : (leaveBus s).now = s.now := rfl
@[simp] theorem leaveBus_cfg : (leaveBus s).cfg = s.cfg := rfl
@[simp] theorem leaveBus_shu : (leaveBus s).shu = s.shu := rfl
@[simp] theorem leaveBus_dmu : (leaveBus s).dmu = s.dmu := rfl
@[simp] theorem leaveBus_htr : (leaveBus s).htr = s.htr := rfl
@[simp] theorem leaveBus_ins : (leaveBus s).ins = s.ins := rfl
@[simp] theorem leaveBus_trc : (leaveBus s).trc = s.trc := rfl
@[simp] theorem leaveBus_mtr : (leaveBus s).mtr = s.mtr := rfl
@[simp] theorem leaveBus_ses : (leaveBus s).ses = s.ses := rfl
@[simp] theorem leaveBus_stc : (leaveBus s).stc = s.stc := rfl
@[simp] theorem leaveBus_flt : (leaveBus s).flt = s.flt := rfl
@[simp] theorem leaveBus_vlk : (leaveBus s).vlk = s.vlk := rfl
@[simp] theorem leaveBus_trm : (leaveBus s).trm = s.trm := rfl
@[simp] theorem leaveBus_dli : (leaveBus s).dli = s.dli := rfl
@[simp] theorem leaveBus_pending : (leaveBus s).pending = s.pending := rfl

@[simp] theorem openWindow_now : (openWindow s).now = s.now := rfl
@[simp] theorem openWindow_cfg : (openWindow s).cfg = s.cfg := rfl
@[simp] theorem openWindow_ptb : (openWindow s).ptb = s.ptb := rfl
@[simp] theorem openWindow_shu : (openWindow s).shu = s.shu := rfl
@[simp] theorem openWindow_dmu : (openWindow s).dmu = s.dmu := rfl
@[simp] theorem openWindow_ins : (openWindow s).ins = s.ins := rfl
@[simp] theorem openWindow_epi : (openWindow s).epi = s.epi := rfl
@[simp] theorem openWindow_trc : (openWindow s).trc = s.trc := rfl
@[simp] theorem openWindow_mtr : (openWindow s).mtr = s.mtr := rfl
@[simp] theorem openWindow_ses : (openWindow s).ses = s.ses := rfl
@[simp] theorem openWindow_stc : (openWindow s).stc = s.stc := rfl
@[simp] theorem openWindow_flt : (openWindow s).flt = s.flt := rfl
@[simp] theorem openWindow_vlk : (openWindow s).vlk = s.vlk := rfl
@[simp] theorem openWindow_trm : (openWindow s).trm = s.trm := rfl
@[simp] theorem openWindow_dli : (openWindow s).dli = s.dli := rfl
@[simp] theorem openWindow_pending : (openWindow s).pending = s.pending := rfl

@[simp] theorem closeWindow_now : (closeWindow s).now = s.now := rfl
@[simp] theorem closeWindow_cfg : (closeWindow s).cfg = s.cfg := rfl
@[simp] theorem closeWindow_ptb : (closeWindow s).ptb = s.ptb := rfl
@[simp] theorem closeWindow_shu : (closeWindow s).shu = s.shu := rfl
@[simp] theorem closeWindow_dmu : (closeWindow s).dmu = s.dmu := rfl
@[simp] theorem closeWindow_ins : (closeWindow s).ins = s.ins := rfl
@[simp] theorem closeWindow_epi : (closeWindow s).epi = s.epi := rfl
@[simp] theorem closeWindow_trc : (closeWindow s).trc = s.trc := rfl
@[simp] theorem closeWindow_mtr : (closeWindow s).mtr = s.mtr := rfl
@[simp] theorem closeWindow_ses : (closeWindow s).ses = s.ses := rfl
@[simp] theorem closeWindow_stc : (closeWindow s).stc = s.stc := rfl
@[simp] theorem closeWindow_flt : (closeWindow s).flt = s.flt := rfl
@[simp] theorem closeWindow_vlk : (closeWindow s).vlk = s.vlk := rfl
@[simp] theorem closeWindow_trm : (closeWindow s).trm = s.trm := rfl
@[simp] theorem closeWindow_dli : (closeWindow s).dli = s.dli := rfl
@[simp] theorem closeWindow_pending : (closeWindow s).pending = s.pending := rfl

@[simp] theorem startEpochTimer_now : (startEpochTimer s).now = s.now := rfl
@[simp] theorem startEpochTimer_cfg : (startEpochTimer s).cfg = s.cfg := rfl
@[simp] theorem startEpochTimer_ptb : (startEpochTimer s).ptb = s.ptb := rfl
@[simp] theorem startEpochTimer_shu : (startEpochTimer s).shu = s.shu := rfl
@[simp] theorem startEpochTimer_dmu : (startEpochTimer s).dmu = s.dmu := rfl
@[simp] theorem startEpochTimer_htr : (startEpochTimer s).htr = s.htr := rfl
@[simp] theorem startEpochTimer_epi : (startEpochTimer s).epi = s.epi := rfl
@[simp] theorem startEpochTimer_trc : (startEpochTimer s).trc = s.trc := rfl
@[simp] theorem startEpochTimer_mtr : (startEpochTimer s).mtr = s.mtr := rfl
@[simp] theorem startEpochTimer_ses : (startEpochTimer s).ses = s.ses := rfl
@[simp] theorem startEpochTimer_stc : (startEpochTimer s).stc = s.stc := rfl
@[simp] theorem startEpochTimer_flt : (startEpochTimer s).flt = s.flt := rfl
@[simp] theorem startEpochTimer_vlk : (startEpochTimer s).vlk = s.vlk := rfl
@[simp] theorem startEpochTimer_trm : (startEpochTimer s).trm = s.trm := rfl
@[simp] theorem startEpochTimer_dli : (startEpochTimer s).dli = s.dli := rfl
@[simp] theorem startEpochTimer_pending : (startEpochTimer s).pending = s.pending := rfl

@[simp] theorem enterTrace_now (n m : Nat) (r : Option Nat) (v : Nat) : (enterTrace n m r v s).now = s.now := rfl
@[simp] theorem enterTrace_cfg (n m : Nat) (r : Option Nat) (v : Nat) : (enterTrace n m r v s).cfg = s.cfg := rfl
@[simp] theorem enterTrace_ptb (n m : Nat) (r : Option Nat) (v : Nat) : (enterTrace n m r v s).ptb = s.ptb := rfl
@[simp] theorem enterTrace_shu (n m : Nat) (r : Option Nat) (v : Nat) : (enterTrace n m r v s).shu = s.shu := rfl
@[simp] theorem enterTrace_dmu (n m : Nat) (r : Option Nat) (v : Nat) : (enterTrace n m r v s).dmu = s.dmu := rfl
@[simp] theorem enterTrace_htr (n m : Nat) (r : Option Nat) (v : Nat) : (enterTrace n m r v s).htr = s.htr := rfl
@[simp] theorem enterTrace_ins (n m : Nat) (r : Option Nat) (v : Nat) : (enterTrace n m r v s).ins = s.ins := rfl
@[simp] theorem enterTrace_epi (n m : Nat) (r : Option Nat) (v : Nat) : (enterTrace n m r v s).epi = s.epi := rfl
@[simp] theorem enterTrace_mtr (n m : Nat) (r : Option Nat) (v : Nat) : (enterTrace n m r v s).mtr = s.mtr := rfl
@[simp] theorem enterTrace_ses (n m : Nat) (r : Option Nat) (v : Nat) : (enterTrace n m r v s).ses = s.ses := rfl
@[simp] theorem enterTrace_stc (n m : Nat) (r : Option Nat) (v : Nat) : (enterTrace n m r v s).stc = s.stc := rfl
@[simp] theorem enterTrace_flt (n m : Nat) (r : Option Nat) (v : Nat) : (enterTrace n m r v s).flt = s.flt := rfl
@[simp] theorem enterTrace_vlk (n m : Nat) (r : Option Nat) (v : Nat) : (enterTrace n m r v s).vlk = s.vlk := rfl
@[simp] theorem enterTrace_trm (n m : Nat) (r : Option Nat) (v : Nat) : (enterTrace n m r v s).trm = s.trm := rfl
@[simp] theorem enterTrace_dli (n m : Nat) (r : Option Nat) (v : Nat) : (enterTrace n m r v s).dli = s.dli := rfl
@[simp] theorem enterTrace_pending (n m : Nat) (r : Option Nat) (v : Nat) : (enterTrace n m r v s).pending = s.pending := rfl

@[simp] theorem setEpisode_now (e : EpisodeState) : (setEpisode e s).now = s.now := rfl
@[simp] theorem setEpisode_cfg (e : EpisodeState) : (setEpisode e s).cfg = s.cfg := rfl
@[simp] theorem setEpisode_ptb (e : EpisodeState) : (setEpisode e s).ptb = s.ptb := rfl
@[simp] theorem setEpisode_shu (e : EpisodeState) : (setEpisode e s).shu = s.shu := rfl
@[simp] theorem setEpisode_dmu (e : EpisodeState) : (setEpisode e s).dmu = s.dmu := rfl
@[simp] theorem setEpisode_htr (e : EpisodeState) : (setEpisode e s).htr = s.htr := rfl
@[simp] theorem setEpisode_ins (e : EpisodeState) : (setEpisode e s).ins = s.ins := rfl
@[simp] theorem setEpisode_trc (e : EpisodeState) : (setEpisode e s).trc = s.trc := rfl
@[simp] theorem setEpisode_mtr (e : EpisodeState) : (setEpisode e s).mtr = s.mtr := rfl
@[simp] theorem setEpisode_ses (e : EpisodeState) : (setEpisode e s).ses = s.ses := rfl
@[simp] theorem setEpisode_stc (e : EpisodeState) : (setEpisode e s).stc = s.stc := rfl
@[simp] theorem setEpisode_flt (e : EpisodeState) : (setEpisode e s).flt = s.flt := rfl
@[simp] theorem setEpisode_vlk (e : EpisodeState) : (setEpisode e s).vlk = s.vlk := rfl
@[simp] theorem setEpisode_trm (e : EpisodeState) : (setEpisode e s).trm = s.trm := rfl
@[simp] theorem setEpisode_dli (e : EpisodeState) : (setEpisode e s).dli = s.dli := rfl
@[simp] theorem setEpisode_pending (e : EpisodeState) : (setEpisode e s).pending = s.pending := rfl

@[simp] theorem setClaimants_now (cs : List Claimant) : (setClaimants cs s).now = s.now := rfl
@[simp] theorem setClaimants_cfg (cs : List Claimant) : (setClaimants cs s).cfg = s.cfg := rfl
@[simp] theorem setClaimants_shu (cs : List Claimant) : (setClaimants cs s).shu = s.shu := rfl
@[simp] theorem setClaimants_dmu (cs : List Claimant) : (setClaimants cs s).dmu = s.dmu := rfl
@[simp] theorem setClaimants_htr (cs : List Claimant) : (setClaimants cs s).htr = s.htr := rfl
@[simp] theorem setClaimants_ins (cs : List Claimant) : (setClaimants cs s).ins = s.ins := rfl
@[simp] theorem setClaimants_trc (cs : List Claimant) : (setClaimants cs s).trc = s.trc := rfl
@[simp] theorem setClaimants_mtr (cs : List Claimant) : (setClaimants cs s).mtr = s.mtr := rfl
@[simp] theorem setClaimants_ses (cs : List Claimant) : (setClaimants cs s).ses = s.ses := rfl
@[simp] theorem setClaimants_stc (cs : List Claimant) : (setClaimants cs s).stc = s.stc := rfl
@[simp] theorem setClaimants_flt (cs : List Claimant) : (setClaimants cs s).flt = s.flt := rfl
@[simp] theorem setClaimants_vlk (cs : List Claimant) : (setClaimants cs s).vlk = s.vlk := rfl
@[simp] theorem setClaimants_trm (cs : List Claimant) : (setClaimants cs s).trm = s.trm := rfl
@[simp] theorem setClaimants_dli (cs : List Claimant) : (setClaimants cs s).dli = s.dli := rfl
@[simp] theorem setClaimants_pending (cs : List Claimant) : (setClaimants cs s).pending = s.pending := rfl

@[simp] theorem claimantDeparted_now (code : Nat) : (claimantDeparted code s).now = s.now := rfl
@[simp] theorem claimantDeparted_cfg (code : Nat) : (claimantDeparted code s).cfg = s.cfg := rfl
@[simp] theorem claimantDeparted_ptb (code : Nat) : (claimantDeparted code s).ptb = s.ptb := rfl
@[simp] theorem claimantDeparted_shu (code : Nat) : (claimantDeparted code s).shu = s.shu := rfl
@[simp] theorem claimantDeparted_dmu (code : Nat) : (claimantDeparted code s).dmu = s.dmu := rfl
@[simp] theorem claimantDeparted_htr (code : Nat) : (claimantDeparted code s).htr = s.htr := rfl
@[simp] theorem claimantDeparted_ins (code : Nat) : (claimantDeparted code s).ins = s.ins := rfl
@[simp] theorem claimantDeparted_trc (code : Nat) : (claimantDeparted code s).trc = s.trc := rfl
@[simp] theorem claimantDeparted_mtr (code : Nat) : (claimantDeparted code s).mtr = s.mtr := rfl
@[simp] theorem claimantDeparted_ses (code : Nat) : (claimantDeparted code s).ses = s.ses := rfl
@[simp] theorem claimantDeparted_stc (code : Nat) : (claimantDeparted code s).stc = s.stc := rfl
@[simp] theorem claimantDeparted_flt (code : Nat) : (claimantDeparted code s).flt = s.flt := rfl
@[simp] theorem claimantDeparted_vlk (code : Nat) : (claimantDeparted code s).vlk = s.vlk := rfl
@[simp] theorem claimantDeparted_trm (code : Nat) : (claimantDeparted code s).trm = s.trm := rfl
@[simp] theorem claimantDeparted_dli (code : Nat) : (claimantDeparted code s).dli = s.dli := rfl
@[simp] theorem claimantDeparted_pending (code : Nat) : (claimantDeparted code s).pending = s.pending := rfl

@[simp] theorem idleAndTimer_now : (idleAndTimer s).now = s.now := rfl
@[simp] theorem idleAndTimer_cfg : (idleAndTimer s).cfg = s.cfg := rfl
@[simp] theorem idleAndTimer_ptb : (idleAndTimer s).ptb = s.ptb := rfl
@[simp] theorem idleAndTimer_shu : (idleAndTimer s).shu = s.shu := rfl
@[simp] theorem idleAndTimer_dmu : (idleAndTimer s).dmu = s.dmu := rfl
@[simp] theorem idleAndTimer_htr : (idleAndTimer s).htr = s.htr := rfl
@[simp] theorem idleAndTimer_epi : (idleAndTimer s).epi = s.epi := rfl
@[simp] theorem idleAndTimer_trc : (idleAndTimer s).trc = s.trc := rfl
@[simp] theorem idleAndTimer_mtr : (idleAndTimer s).mtr = s.mtr := rfl
@[simp] theorem idleAndTimer_ses : (idleAndTimer s).ses = s.ses := rfl
@[simp] theorem idleAndTimer_stc : (idleAndTimer s).stc = s.stc := rfl
@[simp] theorem idleAndTimer_flt : (idleAndTimer s).flt = s.flt := rfl
@[simp] theorem idleAndTimer_vlk : (idleAndTimer s).vlk = s.vlk := rfl
@[simp] theorem idleAndTimer_trm : (idleAndTimer s).trm = s.trm := rfl
@[simp] theorem idleAndTimer_dli : (idleAndTimer s).dli = s.dli := rfl
@[simp] theorem idleAndTimer_pending : (idleAndTimer s).pending = s.pending := rfl

@[simp] theorem observeEpoch_now (c n half : Nat) : (observeEpoch c n half s).now = s.now := rfl
@[simp] theorem observeEpoch_cfg (c n half : Nat) : (observeEpoch c n half s).cfg = s.cfg := rfl
@[simp] theorem observeEpoch_ptb (c n half : Nat) : (observeEpoch c n half s).ptb = s.ptb := rfl
@[simp] theorem observeEpoch_shu (c n half : Nat) : (observeEpoch c n half s).shu = s.shu := rfl
@[simp] theorem observeEpoch_dmu (c n half : Nat) : (observeEpoch c n half s).dmu = s.dmu := rfl
@[simp] theorem observeEpoch_epi (c n half : Nat) : (observeEpoch c n half s).epi = s.epi := rfl
@[simp] theorem observeEpoch_trc (c n half : Nat) : (observeEpoch c n half s).trc = s.trc := rfl
@[simp] theorem observeEpoch_mtr (c n half : Nat) : (observeEpoch c n half s).mtr = s.mtr := rfl
@[simp] theorem observeEpoch_ses (c n half : Nat) : (observeEpoch c n half s).ses = s.ses := rfl
@[simp] theorem observeEpoch_stc (c n half : Nat) : (observeEpoch c n half s).stc = s.stc := rfl
@[simp] theorem observeEpoch_flt (c n half : Nat) : (observeEpoch c n half s).flt = s.flt := rfl
@[simp] theorem observeEpoch_vlk (c n half : Nat) : (observeEpoch c n half s).vlk = s.vlk := rfl
@[simp] theorem observeEpoch_trm (c n half : Nat) : (observeEpoch c n half s).trm = s.trm := rfl
@[simp] theorem observeEpoch_dli (c n half : Nat) : (observeEpoch c n half s).dli = s.dli := rfl
@[simp] theorem observeEpoch_pending (c n half : Nat) : (observeEpoch c n half s).pending = s.pending := rfl

@[simp] theorem setLastEpoch_now (n : Nat) : (setLastEpoch n s).now = s.now := rfl
@[simp] theorem setLastEpoch_cfg (n : Nat) : (setLastEpoch n s).cfg = s.cfg := rfl
@[simp] theorem setLastEpoch_ptb (n : Nat) : (setLastEpoch n s).ptb = s.ptb := rfl
@[simp] theorem setLastEpoch_shu (n : Nat) : (setLastEpoch n s).shu = s.shu := rfl
@[simp] theorem setLastEpoch_dmu (n : Nat) : (setLastEpoch n s).dmu = s.dmu := rfl
@[simp] theorem setLastEpoch_htr (n : Nat) : (setLastEpoch n s).htr = s.htr := rfl
@[simp] theorem setLastEpoch_epi (n : Nat) : (setLastEpoch n s).epi = s.epi := rfl
@[simp] theorem setLastEpoch_trc (n : Nat) : (setLastEpoch n s).trc = s.trc := rfl
@[simp] theorem setLastEpoch_mtr (n : Nat) : (setLastEpoch n s).mtr = s.mtr := rfl
@[simp] theorem setLastEpoch_ses (n : Nat) : (setLastEpoch n s).ses = s.ses := rfl
@[simp] theorem setLastEpoch_stc (n : Nat) : (setLastEpoch n s).stc = s.stc := rfl
@[simp] theorem setLastEpoch_flt (n : Nat) : (setLastEpoch n s).flt = s.flt := rfl
@[simp] theorem setLastEpoch_vlk (n : Nat) : (setLastEpoch n s).vlk = s.vlk := rfl
@[simp] theorem setLastEpoch_trm (n : Nat) : (setLastEpoch n s).trm = s.trm := rfl
@[simp] theorem setLastEpoch_dli (n : Nat) : (setLastEpoch n s).dli = s.dli := rfl
@[simp] theorem setLastEpoch_pending (n : Nat) : (setLastEpoch n s).pending = s.pending := rfl

@[simp] theorem endObserved_now : (endObserved s).now = s.now := rfl
@[simp] theorem endObserved_cfg : (endObserved s).cfg = s.cfg := rfl
@[simp] theorem endObserved_ptb : (endObserved s).ptb = s.ptb := rfl
@[simp] theorem endObserved_shu : (endObserved s).shu = s.shu := rfl
@[simp] theorem endObserved_dmu : (endObserved s).dmu = s.dmu := rfl
@[simp] theorem endObserved_epi : (endObserved s).epi = s.epi := rfl
@[simp] theorem endObserved_trc : (endObserved s).trc = s.trc := rfl
@[simp] theorem endObserved_mtr : (endObserved s).mtr = s.mtr := rfl
@[simp] theorem endObserved_ses : (endObserved s).ses = s.ses := rfl
@[simp] theorem endObserved_stc : (endObserved s).stc = s.stc := rfl
@[simp] theorem endObserved_flt : (endObserved s).flt = s.flt := rfl
@[simp] theorem endObserved_vlk : (endObserved s).vlk = s.vlk := rfl
@[simp] theorem endObserved_trm : (endObserved s).trm = s.trm := rfl
@[simp] theorem endObserved_dli : (endObserved s).dli = s.dli := rfl
@[simp] theorem endObserved_pending : (endObserved s).pending = s.pending := rfl

@[simp] theorem passPoint_now (u ib : Int) : (passPoint u ib s).now = s.now := rfl
@[simp] theorem passPoint_cfg (u ib : Int) : (passPoint u ib s).cfg = s.cfg := rfl
@[simp] theorem passPoint_ptb (u ib : Int) : (passPoint u ib s).ptb = s.ptb := rfl
@[simp] theorem passPoint_shu (u ib : Int) : (passPoint u ib s).shu = s.shu := rfl
@[simp] theorem passPoint_dmu (u ib : Int) : (passPoint u ib s).dmu = s.dmu := rfl
@[simp] theorem passPoint_htr (u ib : Int) : (passPoint u ib s).htr = s.htr := rfl
@[simp] theorem passPoint_epi (u ib : Int) : (passPoint u ib s).epi = s.epi := rfl
@[simp] theorem passPoint_trc (u ib : Int) : (passPoint u ib s).trc = s.trc := rfl
@[simp] theorem passPoint_mtr (u ib : Int) : (passPoint u ib s).mtr = s.mtr := rfl
@[simp] theorem passPoint_ses (u ib : Int) : (passPoint u ib s).ses = s.ses := rfl
@[simp] theorem passPoint_stc (u ib : Int) : (passPoint u ib s).stc = s.stc := rfl
@[simp] theorem passPoint_flt (u ib : Int) : (passPoint u ib s).flt = s.flt := rfl
@[simp] theorem passPoint_vlk (u ib : Int) : (passPoint u ib s).vlk = s.vlk := rfl
@[simp] theorem passPoint_trm (u ib : Int) : (passPoint u ib s).trm = s.trm := rfl
@[simp] theorem passPoint_dli (u ib : Int) : (passPoint u ib s).dli = s.dli := rfl
@[simp] theorem passPoint_pending (u ib : Int) : (passPoint u ib s).pending = s.pending := rfl

@[simp] theorem loseEpoch_now : (loseEpoch s).now = s.now := rfl
@[simp] theorem loseEpoch_cfg : (loseEpoch s).cfg = s.cfg := rfl
@[simp] theorem loseEpoch_ptb : (loseEpoch s).ptb = s.ptb := rfl
@[simp] theorem loseEpoch_shu : (loseEpoch s).shu = s.shu := rfl
@[simp] theorem loseEpoch_dmu : (loseEpoch s).dmu = s.dmu := rfl
@[simp] theorem loseEpoch_epi : (loseEpoch s).epi = s.epi := rfl
@[simp] theorem loseEpoch_trc : (loseEpoch s).trc = s.trc := rfl
@[simp] theorem loseEpoch_mtr : (loseEpoch s).mtr = s.mtr := rfl
@[simp] theorem loseEpoch_ses : (loseEpoch s).ses = s.ses := rfl
@[simp] theorem loseEpoch_stc : (loseEpoch s).stc = s.stc := rfl
@[simp] theorem loseEpoch_flt : (loseEpoch s).flt = s.flt := rfl
@[simp] theorem loseEpoch_vlk : (loseEpoch s).vlk = s.vlk := rfl
@[simp] theorem loseEpoch_trm : (loseEpoch s).trm = s.trm := rfl
@[simp] theorem loseEpoch_dli : (loseEpoch s).dli = s.dli := rfl
@[simp] theorem loseEpoch_pending : (loseEpoch s).pending = s.pending := rfl

@[simp] theorem startOwnEpoch_now : (startOwnEpoch s).now = s.now := rfl
@[simp] theorem startOwnEpoch_cfg : (startOwnEpoch s).cfg = s.cfg := rfl
@[simp] theorem startOwnEpoch_ptb : (startOwnEpoch s).ptb = s.ptb := rfl
@[simp] theorem startOwnEpoch_shu : (startOwnEpoch s).shu = s.shu := rfl
@[simp] theorem startOwnEpoch_dmu : (startOwnEpoch s).dmu = s.dmu := rfl
@[simp] theorem startOwnEpoch_htr : (startOwnEpoch s).htr = s.htr := rfl
@[simp] theorem startOwnEpoch_epi : (startOwnEpoch s).epi = s.epi := rfl
@[simp] theorem startOwnEpoch_trc : (startOwnEpoch s).trc = s.trc := rfl
@[simp] theorem startOwnEpoch_mtr : (startOwnEpoch s).mtr = s.mtr := rfl
@[simp] theorem startOwnEpoch_ses : (startOwnEpoch s).ses = s.ses := rfl
@[simp] theorem startOwnEpoch_stc : (startOwnEpoch s).stc = s.stc := rfl
@[simp] theorem startOwnEpoch_flt : (startOwnEpoch s).flt = s.flt := rfl
@[simp] theorem startOwnEpoch_vlk : (startOwnEpoch s).vlk = s.vlk := rfl
@[simp] theorem startOwnEpoch_trm : (startOwnEpoch s).trm = s.trm := rfl
@[simp] theorem startOwnEpoch_pending : (startOwnEpoch s).pending = s.pending := rfl

@[simp] theorem openTransaction_now (n : Nat) : (openTransaction n s).now = s.now := rfl
@[simp] theorem openTransaction_cfg (n : Nat) : (openTransaction n s).cfg = s.cfg := rfl
@[simp] theorem openTransaction_ptb (n : Nat) : (openTransaction n s).ptb = s.ptb := rfl
@[simp] theorem openTransaction_shu (n : Nat) : (openTransaction n s).shu = s.shu := rfl
@[simp] theorem openTransaction_dmu (n : Nat) : (openTransaction n s).dmu = s.dmu := rfl
@[simp] theorem openTransaction_htr (n : Nat) : (openTransaction n s).htr = s.htr := rfl
@[simp] theorem openTransaction_ins (n : Nat) : (openTransaction n s).ins = s.ins := rfl
@[simp] theorem openTransaction_epi (n : Nat) : (openTransaction n s).epi = s.epi := rfl
@[simp] theorem openTransaction_trc (n : Nat) : (openTransaction n s).trc = s.trc := rfl
@[simp] theorem openTransaction_mtr (n : Nat) : (openTransaction n s).mtr = s.mtr := rfl
@[simp] theorem openTransaction_ses (n : Nat) : (openTransaction n s).ses = s.ses := rfl
@[simp] theorem openTransaction_stc (n : Nat) : (openTransaction n s).stc = s.stc := rfl
@[simp] theorem openTransaction_flt (n : Nat) : (openTransaction n s).flt = s.flt := rfl
@[simp] theorem openTransaction_trm (n : Nat) : (openTransaction n s).trm = s.trm := rfl
@[simp] theorem openTransaction_dli (n : Nat) : (openTransaction n s).dli = s.dli := rfl
@[simp] theorem openTransaction_pending (n : Nat) : (openTransaction n s).pending = s.pending := rfl

@[simp] theorem closeTransaction_now : (closeTransaction s).now = s.now := rfl
@[simp] theorem closeTransaction_cfg : (closeTransaction s).cfg = s.cfg := rfl
@[simp] theorem closeTransaction_ptb : (closeTransaction s).ptb = s.ptb := rfl
@[simp] theorem closeTransaction_shu : (closeTransaction s).shu = s.shu := rfl
@[simp] theorem closeTransaction_dmu : (closeTransaction s).dmu = s.dmu := rfl
@[simp] theorem closeTransaction_htr : (closeTransaction s).htr = s.htr := rfl
@[simp] theorem closeTransaction_ins : (closeTransaction s).ins = s.ins := rfl
@[simp] theorem closeTransaction_epi : (closeTransaction s).epi = s.epi := rfl
@[simp] theorem closeTransaction_trc : (closeTransaction s).trc = s.trc := rfl
@[simp] theorem closeTransaction_mtr : (closeTransaction s).mtr = s.mtr := rfl
@[simp] theorem closeTransaction_ses : (closeTransaction s).ses = s.ses := rfl
@[simp] theorem closeTransaction_stc : (closeTransaction s).stc = s.stc := rfl
@[simp] theorem closeTransaction_flt : (closeTransaction s).flt = s.flt := rfl
@[simp] theorem closeTransaction_trm : (closeTransaction s).trm = s.trm := rfl
@[simp] theorem closeTransaction_dli : (closeTransaction s).dli = s.dli := rfl
@[simp] theorem closeTransaction_pending : (closeTransaction s).pending = s.pending := rfl

@[simp] theorem reply_now (code tag : Byte) (res : Result) (data : List Byte) : (reply code tag res data s).now = s.now := rfl
@[simp] theorem reply_cfg (code tag : Byte) (res : Result) (data : List Byte) : (reply code tag res data s).cfg = s.cfg := rfl
@[simp] theorem reply_ptb (code tag : Byte) (res : Result) (data : List Byte) : (reply code tag res data s).ptb = s.ptb := rfl
@[simp] theorem reply_shu (code tag : Byte) (res : Result) (data : List Byte) : (reply code tag res data s).shu = s.shu := rfl
@[simp] theorem reply_dmu (code tag : Byte) (res : Result) (data : List Byte) : (reply code tag res data s).dmu = s.dmu := rfl
@[simp] theorem reply_htr (code tag : Byte) (res : Result) (data : List Byte) : (reply code tag res data s).htr = s.htr := rfl
@[simp] theorem reply_ins (code tag : Byte) (res : Result) (data : List Byte) : (reply code tag res data s).ins = s.ins := rfl
@[simp] theorem reply_epi (code tag : Byte) (res : Result) (data : List Byte) : (reply code tag res data s).epi = s.epi := rfl
@[simp] theorem reply_trc (code tag : Byte) (res : Result) (data : List Byte) : (reply code tag res data s).trc = s.trc := rfl
@[simp] theorem reply_mtr (code tag : Byte) (res : Result) (data : List Byte) : (reply code tag res data s).mtr = s.mtr := rfl
@[simp] theorem reply_ses (code tag : Byte) (res : Result) (data : List Byte) : (reply code tag res data s).ses = s.ses := rfl
@[simp] theorem reply_stc (code tag : Byte) (res : Result) (data : List Byte) : (reply code tag res data s).stc = s.stc := rfl
@[simp] theorem reply_flt (code tag : Byte) (res : Result) (data : List Byte) : (reply code tag res data s).flt = s.flt := rfl
@[simp] theorem reply_trm (code tag : Byte) (res : Result) (data : List Byte) : (reply code tag res data s).trm = s.trm := rfl
@[simp] theorem reply_dli (code tag : Byte) (res : Result) (data : List Byte) : (reply code tag res data s).dli = s.dli := rfl
@[simp] theorem reply_pending (code tag : Byte) (res : Result) (data : List Byte) : (reply code tag res data s).pending = s.pending := rfl

@[simp] theorem resetBlocks_now : (resetBlocks s).now = s.now := rfl
@[simp] theorem resetBlocks_trc : (resetBlocks s).trc = s.trc := rfl
@[simp] theorem resetBlocks_ses : (resetBlocks s).ses = s.ses := rfl
@[simp] theorem resetBlocks_flt : (resetBlocks s).flt = s.flt := rfl
@[simp] theorem resetBlocks_vlk : (resetBlocks s).vlk = s.vlk := rfl
@[simp] theorem resetBlocks_trm : (resetBlocks s).trm = s.trm := rfl
@[simp] theorem resetBlocks_pending : (resetBlocks s).pending = s.pending := rfl

@[simp] theorem powerOn_now : (powerOn s).now = s.now := rfl
@[simp] theorem powerOn_flt : (powerOn s).flt = s.flt := rfl
@[simp] theorem powerOn_pending : (powerOn s).pending = s.pending := rfl

@[simp] theorem setEntries_now (es : List PeerEntry) : (setEntries es s).now = s.now := rfl
@[simp] theorem setEntries_cfg (es : List PeerEntry) : (setEntries es s).cfg = s.cfg := rfl
@[simp] theorem setEntries_shu (es : List PeerEntry) : (setEntries es s).shu = s.shu := rfl
@[simp] theorem setEntries_dmu (es : List PeerEntry) : (setEntries es s).dmu = s.dmu := rfl
@[simp] theorem setEntries_htr (es : List PeerEntry) : (setEntries es s).htr = s.htr := rfl
@[simp] theorem setEntries_ins (es : List PeerEntry) : (setEntries es s).ins = s.ins := rfl
@[simp] theorem setEntries_epi (es : List PeerEntry) : (setEntries es s).epi = s.epi := rfl
@[simp] theorem setEntries_trc (es : List PeerEntry) : (setEntries es s).trc = s.trc := rfl
@[simp] theorem setEntries_mtr (es : List PeerEntry) : (setEntries es s).mtr = s.mtr := rfl
@[simp] theorem setEntries_ses (es : List PeerEntry) : (setEntries es s).ses = s.ses := rfl
@[simp] theorem setEntries_stc (es : List PeerEntry) : (setEntries es s).stc = s.stc := rfl
@[simp] theorem setEntries_flt (es : List PeerEntry) : (setEntries es s).flt = s.flt := rfl
@[simp] theorem setEntries_vlk (es : List PeerEntry) : (setEntries es s).vlk = s.vlk := rfl
@[simp] theorem setEntries_trm (es : List PeerEntry) : (setEntries es s).trm = s.trm := rfl
@[simp] theorem setEntries_dli (es : List PeerEntry) : (setEntries es s).dli = s.dli := rfl
@[simp] theorem setEntries_pending (es : List PeerEntry) : (setEntries es s).pending = s.pending := rfl

@[simp] theorem createEntry_now (code : Nat) (f : ShareFields) : (createEntry code f s).now = s.now := rfl
@[simp] theorem createEntry_cfg (code : Nat) (f : ShareFields) : (createEntry code f s).cfg = s.cfg := rfl
@[simp] theorem createEntry_shu (code : Nat) (f : ShareFields) : (createEntry code f s).shu = s.shu := rfl
@[simp] theorem createEntry_dmu (code : Nat) (f : ShareFields) : (createEntry code f s).dmu = s.dmu := rfl
@[simp] theorem createEntry_htr (code : Nat) (f : ShareFields) : (createEntry code f s).htr = s.htr := rfl
@[simp] theorem createEntry_ins (code : Nat) (f : ShareFields) : (createEntry code f s).ins = s.ins := rfl
@[simp] theorem createEntry_trc (code : Nat) (f : ShareFields) : (createEntry code f s).trc = s.trc := rfl
@[simp] theorem createEntry_mtr (code : Nat) (f : ShareFields) : (createEntry code f s).mtr = s.mtr := rfl
@[simp] theorem createEntry_ses (code : Nat) (f : ShareFields) : (createEntry code f s).ses = s.ses := rfl
@[simp] theorem createEntry_stc (code : Nat) (f : ShareFields) : (createEntry code f s).stc = s.stc := rfl
@[simp] theorem createEntry_flt (code : Nat) (f : ShareFields) : (createEntry code f s).flt = s.flt := rfl
@[simp] theorem createEntry_vlk (code : Nat) (f : ShareFields) : (createEntry code f s).vlk = s.vlk := rfl
@[simp] theorem createEntry_trm (code : Nat) (f : ShareFields) : (createEntry code f s).trm = s.trm := rfl
@[simp] theorem createEntry_dli (code : Nat) (f : ShareFields) : (createEntry code f s).dli = s.dli := rfl
@[simp] theorem createEntry_pending (code : Nat) (f : ShareFields) : (createEntry code f s).pending = s.pending := rfl

@[simp] theorem startUnlisted_now : (startUnlisted s).now = s.now := rfl
@[simp] theorem startUnlisted_cfg : (startUnlisted s).cfg = s.cfg := rfl
@[simp] theorem startUnlisted_shu : (startUnlisted s).shu = s.shu := rfl
@[simp] theorem startUnlisted_dmu : (startUnlisted s).dmu = s.dmu := rfl
@[simp] theorem startUnlisted_htr : (startUnlisted s).htr = s.htr := rfl
@[simp] theorem startUnlisted_ins : (startUnlisted s).ins = s.ins := rfl
@[simp] theorem startUnlisted_epi : (startUnlisted s).epi = s.epi := rfl
@[simp] theorem startUnlisted_trc : (startUnlisted s).trc = s.trc := rfl
@[simp] theorem startUnlisted_mtr : (startUnlisted s).mtr = s.mtr := rfl
@[simp] theorem startUnlisted_ses : (startUnlisted s).ses = s.ses := rfl
@[simp] theorem startUnlisted_stc : (startUnlisted s).stc = s.stc := rfl
@[simp] theorem startUnlisted_flt : (startUnlisted s).flt = s.flt := rfl
@[simp] theorem startUnlisted_vlk : (startUnlisted s).vlk = s.vlk := rfl
@[simp] theorem startUnlisted_trm : (startUnlisted s).trm = s.trm := rfl
@[simp] theorem startUnlisted_dli : (startUnlisted s).dli = s.dli := rfl
@[simp] theorem startUnlisted_pending : (startUnlisted s).pending = s.pending := rfl

@[simp] theorem lineIdle_now (m k : Nat) : (lineIdle m k s).now = s.now := rfl
@[simp] theorem lineIdle_cfg (m k : Nat) : (lineIdle m k s).cfg = s.cfg := rfl
@[simp] theorem lineIdle_ptb (m k : Nat) : (lineIdle m k s).ptb = s.ptb := rfl
@[simp] theorem lineIdle_shu (m k : Nat) : (lineIdle m k s).shu = s.shu := rfl
@[simp] theorem lineIdle_dmu (m k : Nat) : (lineIdle m k s).dmu = s.dmu := rfl
@[simp] theorem lineIdle_htr (m k : Nat) : (lineIdle m k s).htr = s.htr := rfl
@[simp] theorem lineIdle_ins (m k : Nat) : (lineIdle m k s).ins = s.ins := rfl
@[simp] theorem lineIdle_epi (m k : Nat) : (lineIdle m k s).epi = s.epi := rfl
@[simp] theorem lineIdle_trc (m k : Nat) : (lineIdle m k s).trc = s.trc := rfl
@[simp] theorem lineIdle_mtr (m k : Nat) : (lineIdle m k s).mtr = s.mtr := rfl
@[simp] theorem lineIdle_ses (m k : Nat) : (lineIdle m k s).ses = s.ses := rfl
@[simp] theorem lineIdle_stc (m k : Nat) : (lineIdle m k s).stc = s.stc := rfl
@[simp] theorem lineIdle_flt (m k : Nat) : (lineIdle m k s).flt = s.flt := rfl
@[simp] theorem lineIdle_vlk (m k : Nat) : (lineIdle m k s).vlk = s.vlk := rfl
@[simp] theorem lineIdle_trm (m k : Nat) : (lineIdle m k s).trm = s.trm := rfl
@[simp] theorem lineIdle_pending (m k : Nat) : (lineIdle m k s).pending = s.pending := rfl

@[simp] theorem startAnnounce_now (m : Nat) : (startAnnounce m s).now = s.now := rfl
@[simp] theorem startAnnounce_cfg (m : Nat) : (startAnnounce m s).cfg = s.cfg := rfl
@[simp] theorem startAnnounce_ptb (m : Nat) : (startAnnounce m s).ptb = s.ptb := rfl
@[simp] theorem startAnnounce_shu (m : Nat) : (startAnnounce m s).shu = s.shu := rfl
@[simp] theorem startAnnounce_dmu (m : Nat) : (startAnnounce m s).dmu = s.dmu := rfl
@[simp] theorem startAnnounce_htr (m : Nat) : (startAnnounce m s).htr = s.htr := rfl
@[simp] theorem startAnnounce_ins (m : Nat) : (startAnnounce m s).ins = s.ins := rfl
@[simp] theorem startAnnounce_epi (m : Nat) : (startAnnounce m s).epi = s.epi := rfl
@[simp] theorem startAnnounce_trc (m : Nat) : (startAnnounce m s).trc = s.trc := rfl
@[simp] theorem startAnnounce_mtr (m : Nat) : (startAnnounce m s).mtr = s.mtr := rfl
@[simp] theorem startAnnounce_ses (m : Nat) : (startAnnounce m s).ses = s.ses := rfl
@[simp] theorem startAnnounce_stc (m : Nat) : (startAnnounce m s).stc = s.stc := rfl
@[simp] theorem startAnnounce_flt (m : Nat) : (startAnnounce m s).flt = s.flt := rfl
@[simp] theorem startAnnounce_vlk (m : Nat) : (startAnnounce m s).vlk = s.vlk := rfl
@[simp] theorem startAnnounce_trm (m : Nat) : (startAnnounce m s).trm = s.trm := rfl
@[simp] theorem startAnnounce_pending (m : Nat) : (startAnnounce m s).pending = s.pending := rfl

@[simp] theorem setZone_now (z : ZoneId) (x : Zone) : (setZone z x s).now = s.now := rfl
@[simp] theorem setZone_cfg (z : ZoneId) (x : Zone) : (setZone z x s).cfg = s.cfg := rfl
@[simp] theorem setZone_ptb (z : ZoneId) (x : Zone) : (setZone z x s).ptb = s.ptb := rfl
@[simp] theorem setZone_shu (z : ZoneId) (x : Zone) : (setZone z x s).shu = s.shu := rfl
@[simp] theorem setZone_dmu (z : ZoneId) (x : Zone) : (setZone z x s).dmu = s.dmu := rfl
@[simp] theorem setZone_ins (z : ZoneId) (x : Zone) : (setZone z x s).ins = s.ins := rfl
@[simp] theorem setZone_epi (z : ZoneId) (x : Zone) : (setZone z x s).epi = s.epi := rfl
@[simp] theorem setZone_trc (z : ZoneId) (x : Zone) : (setZone z x s).trc = s.trc := rfl
@[simp] theorem setZone_mtr (z : ZoneId) (x : Zone) : (setZone z x s).mtr = s.mtr := rfl
@[simp] theorem setZone_ses (z : ZoneId) (x : Zone) : (setZone z x s).ses = s.ses := rfl
@[simp] theorem setZone_stc (z : ZoneId) (x : Zone) : (setZone z x s).stc = s.stc := rfl
@[simp] theorem setZone_flt (z : ZoneId) (x : Zone) : (setZone z x s).flt = s.flt := rfl
@[simp] theorem setZone_vlk (z : ZoneId) (x : Zone) : (setZone z x s).vlk = s.vlk := rfl
@[simp] theorem setZone_trm (z : ZoneId) (x : Zone) : (setZone z x s).trm = s.trm := rfl
@[simp] theorem setZone_dli (z : ZoneId) (x : Zone) : (setZone z x s).dli = s.dli := rfl
@[simp] theorem setZone_pending (z : ZoneId) (x : Zone) : (setZone z x s).pending = s.pending := rfl

@[simp] theorem storeTarget_now (e d : Nat) : (storeTarget e d s).now = s.now := rfl
@[simp] theorem storeTarget_cfg (e d : Nat) : (storeTarget e d s).cfg = s.cfg := rfl
@[simp] theorem storeTarget_ptb (e d : Nat) : (storeTarget e d s).ptb = s.ptb := rfl
@[simp] theorem storeTarget_shu (e d : Nat) : (storeTarget e d s).shu = s.shu := rfl
@[simp] theorem storeTarget_htr (e d : Nat) : (storeTarget e d s).htr = s.htr := rfl
@[simp] theorem storeTarget_ins (e d : Nat) : (storeTarget e d s).ins = s.ins := rfl
@[simp] theorem storeTarget_epi (e d : Nat) : (storeTarget e d s).epi = s.epi := rfl
@[simp] theorem storeTarget_trc (e d : Nat) : (storeTarget e d s).trc = s.trc := rfl
@[simp] theorem storeTarget_mtr (e d : Nat) : (storeTarget e d s).mtr = s.mtr := rfl
@[simp] theorem storeTarget_ses (e d : Nat) : (storeTarget e d s).ses = s.ses := rfl
@[simp] theorem storeTarget_stc (e d : Nat) : (storeTarget e d s).stc = s.stc := rfl
@[simp] theorem storeTarget_flt (e d : Nat) : (storeTarget e d s).flt = s.flt := rfl
@[simp] theorem storeTarget_vlk (e d : Nat) : (storeTarget e d s).vlk = s.vlk := rfl
@[simp] theorem storeTarget_trm (e d : Nat) : (storeTarget e d s).trm = s.trm := rfl
@[simp] theorem storeTarget_dli (e d : Nat) : (storeTarget e d s).dli = s.dli := rfl
@[simp] theorem storeTarget_pending (e d : Nat) : (storeTarget e d s).pending = s.pending := rfl

@[simp] theorem serveCalibrate_now (tag : Byte) : (serveCalibrate tag s).now = s.now := rfl
@[simp] theorem serveCalibrate_cfg (tag : Byte) : (serveCalibrate tag s).cfg = s.cfg := rfl
@[simp] theorem serveCalibrate_ptb (tag : Byte) : (serveCalibrate tag s).ptb = s.ptb := rfl
@[simp] theorem serveCalibrate_shu (tag : Byte) : (serveCalibrate tag s).shu = s.shu := rfl
@[simp] theorem serveCalibrate_dmu (tag : Byte) : (serveCalibrate tag s).dmu = s.dmu := rfl
@[simp] theorem serveCalibrate_htr (tag : Byte) : (serveCalibrate tag s).htr = s.htr := rfl
@[simp] theorem serveCalibrate_ins (tag : Byte) : (serveCalibrate tag s).ins = s.ins := rfl
@[simp] theorem serveCalibrate_epi (tag : Byte) : (serveCalibrate tag s).epi = s.epi := rfl
@[simp] theorem serveCalibrate_trc (tag : Byte) : (serveCalibrate tag s).trc = s.trc := rfl
@[simp] theorem serveCalibrate_ses (tag : Byte) : (serveCalibrate tag s).ses = s.ses := rfl
@[simp] theorem serveCalibrate_stc (tag : Byte) : (serveCalibrate tag s).stc = s.stc := rfl
@[simp] theorem serveCalibrate_flt (tag : Byte) : (serveCalibrate tag s).flt = s.flt := rfl
@[simp] theorem serveCalibrate_trm (tag : Byte) : (serveCalibrate tag s).trm = s.trm := rfl
@[simp] theorem serveCalibrate_dli (tag : Byte) : (serveCalibrate tag s).dli = s.dli := rfl
@[simp] theorem serveCalibrate_pending (tag : Byte) : (serveCalibrate tag s).pending = s.pending := rfl

@[simp] theorem elapse_cfg (t : Nat) : (elapse t s).cfg = s.cfg := by
  unfold elapse; (try dsimp only); split <;> rfl
@[simp] theorem elapse_shu (t : Nat) : (elapse t s).shu = s.shu := by
  unfold elapse; (try dsimp only); split <;> rfl
@[simp] theorem elapse_dmu (t : Nat) : (elapse t s).dmu = s.dmu := by
  unfold elapse; (try dsimp only); split <;> rfl
@[simp] theorem elapse_ins (t : Nat) : (elapse t s).ins = s.ins := by
  unfold elapse; (try dsimp only); split <;> rfl
@[simp] theorem elapse_epi (t : Nat) : (elapse t s).epi = s.epi := by
  unfold elapse; (try dsimp only); split <;> rfl
@[simp] theorem elapse_trc (t : Nat) : (elapse t s).trc = s.trc := by
  unfold elapse; (try dsimp only); split <;> rfl
@[simp] theorem elapse_mtr (t : Nat) : (elapse t s).mtr = s.mtr := by
  unfold elapse; (try dsimp only); split <;> rfl
@[simp] theorem elapse_ses (t : Nat) : (elapse t s).ses = s.ses := by
  unfold elapse; (try dsimp only); split <;> rfl
@[simp] theorem elapse_flt (t : Nat) : (elapse t s).flt = s.flt := by
  unfold elapse; (try dsimp only); split <;> rfl
@[simp] theorem elapse_vlk (t : Nat) : (elapse t s).vlk = s.vlk := by
  unfold elapse; (try dsimp only); split <;> rfl
@[simp] theorem elapse_trm (t : Nat) : (elapse t s).trm = s.trm := by
  unfold elapse; (try dsimp only); split <;> rfl
@[simp] theorem elapse_dli (t : Nat) : (elapse t s).dli = s.dli := by
  unfold elapse; (try dsimp only); split <;> rfl
@[simp] theorem elapse_pending (t : Nat) : (elapse t s).pending = s.pending := by
  unfold elapse; (try dsimp only); split <;> rfl

@[simp] theorem refreshFeeder_now : (refreshFeeder s).now = s.now := by
  unfold refreshFeeder; (try dsimp only); split <;> rfl
@[simp] theorem refreshFeeder_cfg : (refreshFeeder s).cfg = s.cfg := by
  unfold refreshFeeder; (try dsimp only); split <;> rfl
@[simp] theorem refreshFeeder_shu : (refreshFeeder s).shu = s.shu := by
  unfold refreshFeeder; (try dsimp only); split <;> rfl
@[simp] theorem refreshFeeder_dmu : (refreshFeeder s).dmu = s.dmu := by
  unfold refreshFeeder; (try dsimp only); split <;> rfl
@[simp] theorem refreshFeeder_htr : (refreshFeeder s).htr = s.htr := by
  unfold refreshFeeder; (try dsimp only); split <;> rfl
@[simp] theorem refreshFeeder_ins : (refreshFeeder s).ins = s.ins := by
  unfold refreshFeeder; (try dsimp only); split <;> rfl
@[simp] theorem refreshFeeder_epi : (refreshFeeder s).epi = s.epi := by
  unfold refreshFeeder; (try dsimp only); split <;> rfl
@[simp] theorem refreshFeeder_trc : (refreshFeeder s).trc = s.trc := by
  unfold refreshFeeder; (try dsimp only); split <;> rfl
@[simp] theorem refreshFeeder_mtr : (refreshFeeder s).mtr = s.mtr := by
  unfold refreshFeeder; (try dsimp only); split <;> rfl
@[simp] theorem refreshFeeder_ses : (refreshFeeder s).ses = s.ses := by
  unfold refreshFeeder; (try dsimp only); split <;> rfl
@[simp] theorem refreshFeeder_stc : (refreshFeeder s).stc = s.stc := by
  unfold refreshFeeder; (try dsimp only); split <;> rfl
@[simp] theorem refreshFeeder_trm : (refreshFeeder s).trm = s.trm := by
  unfold refreshFeeder; (try dsimp only); split <;> rfl
@[simp] theorem refreshFeeder_dli : (refreshFeeder s).dli = s.dli := by
  unfold refreshFeeder; (try dsimp only); split <;> rfl
@[simp] theorem refreshFeeder_pending : (refreshFeeder s).pending = s.pending := by
  unfold refreshFeeder; (try dsimp only); split <;> rfl

@[simp] theorem applyGrant_now : (applyGrant s).now = s.now := by
  unfold applyGrant; (try dsimp only); split <;> rfl
@[simp] theorem applyGrant_cfg : (applyGrant s).cfg = s.cfg := by
  unfold applyGrant; (try dsimp only); split <;> rfl
@[simp] theorem applyGrant_ptb : (applyGrant s).ptb = s.ptb := by
  unfold applyGrant; (try dsimp only); split <;> rfl
@[simp] theorem applyGrant_dmu : (applyGrant s).dmu = s.dmu := by
  unfold applyGrant; (try dsimp only); split <;> rfl
@[simp] theorem applyGrant_htr : (applyGrant s).htr = s.htr := by
  unfold applyGrant; (try dsimp only); split <;> rfl
@[simp] theorem applyGrant_ins : (applyGrant s).ins = s.ins := by
  unfold applyGrant; (try dsimp only); split <;> rfl
@[simp] theorem applyGrant_epi : (applyGrant s).epi = s.epi := by
  unfold applyGrant; (try dsimp only); split <;> rfl
@[simp] theorem applyGrant_trc : (applyGrant s).trc = s.trc := by
  unfold applyGrant; (try dsimp only); split <;> rfl
@[simp] theorem applyGrant_mtr : (applyGrant s).mtr = s.mtr := by
  unfold applyGrant; (try dsimp only); split <;> rfl
@[simp] theorem applyGrant_ses : (applyGrant s).ses = s.ses := by
  unfold applyGrant; (try dsimp only); split <;> rfl
@[simp] theorem applyGrant_stc : (applyGrant s).stc = s.stc := by
  unfold applyGrant; (try dsimp only); split <;> rfl
@[simp] theorem applyGrant_flt : (applyGrant s).flt = s.flt := by
  unfold applyGrant; (try dsimp only); split <;> rfl
@[simp] theorem applyGrant_vlk : (applyGrant s).vlk = s.vlk := by
  unfold applyGrant; (try dsimp only); split <;> rfl
@[simp] theorem applyGrant_trm : (applyGrant s).trm = s.trm := by
  unfold applyGrant; (try dsimp only); split <;> rfl
@[simp] theorem applyGrant_pending : (applyGrant s).pending = s.pending := by
  unfold applyGrant; (try dsimp only); split <;> rfl

@[simp] theorem regrant_now : (regrant s).now = s.now := by
  simp [regrant]
@[simp] theorem regrant_cfg : (regrant s).cfg = s.cfg := by
  simp [regrant]
@[simp] theorem regrant_ptb : (regrant s).ptb = s.ptb := by
  simp [regrant]
@[simp] theorem regrant_dmu : (regrant s).dmu = s.dmu := by
  simp [regrant]
@[simp] theorem regrant_htr : (regrant s).htr = s.htr := by
  simp [regrant]
@[simp] theorem regrant_ins : (regrant s).ins = s.ins := by
  simp [regrant]
@[simp] theorem regrant_epi : (regrant s).epi = s.epi := by
  simp [regrant]
@[simp] theorem regrant_trc : (regrant s).trc = s.trc := by
  simp [regrant]
@[simp] theorem regrant_mtr : (regrant s).mtr = s.mtr := by
  simp [regrant]
@[simp] theorem regrant_ses : (regrant s).ses = s.ses := by
  simp [regrant]
@[simp] theorem regrant_stc : (regrant s).stc = s.stc := by
  simp [regrant]
@[simp] theorem regrant_flt : (regrant s).flt = s.flt := by
  simp [regrant]
@[simp] theorem regrant_vlk : (regrant s).vlk = s.vlk := by
  simp [regrant]
@[simp] theorem regrant_trm : (regrant s).trm = s.trm := by
  simp [regrant]
@[simp] theorem regrant_pending : (regrant s).pending = s.pending := by
  simp [regrant]

@[simp] theorem holdTest_now : (holdTest s).now = s.now := by
  unfold holdTest; (try dsimp only); split <;> rfl
@[simp] theorem holdTest_cfg : (holdTest s).cfg = s.cfg := by
  unfold holdTest; (try dsimp only); split <;> rfl
@[simp] theorem holdTest_ptb : (holdTest s).ptb = s.ptb := by
  unfold holdTest; (try dsimp only); split <;> rfl
@[simp] theorem holdTest_dmu : (holdTest s).dmu = s.dmu := by
  unfold holdTest; (try dsimp only); split <;> rfl
@[simp] theorem holdTest_htr : (holdTest s).htr = s.htr := by
  unfold holdTest; (try dsimp only); split <;> rfl
@[simp] theorem holdTest_ins : (holdTest s).ins = s.ins := by
  unfold holdTest; (try dsimp only); split <;> rfl
@[simp] theorem holdTest_epi : (holdTest s).epi = s.epi := by
  unfold holdTest; (try dsimp only); split <;> rfl
@[simp] theorem holdTest_trc : (holdTest s).trc = s.trc := by
  unfold holdTest; (try dsimp only); split <;> rfl
@[simp] theorem holdTest_mtr : (holdTest s).mtr = s.mtr := by
  unfold holdTest; (try dsimp only); split <;> rfl
@[simp] theorem holdTest_ses : (holdTest s).ses = s.ses := by
  unfold holdTest; (try dsimp only); split <;> rfl
@[simp] theorem holdTest_stc : (holdTest s).stc = s.stc := by
  unfold holdTest; (try dsimp only); split <;> rfl
@[simp] theorem holdTest_flt : (holdTest s).flt = s.flt := by
  unfold holdTest; (try dsimp only); split <;> rfl
@[simp] theorem holdTest_vlk : (holdTest s).vlk = s.vlk := by
  unfold holdTest; (try dsimp only); split <;> rfl
@[simp] theorem holdTest_trm : (holdTest s).trm = s.trm := by
  unfold holdTest; (try dsimp only); split <;> rfl
@[simp] theorem holdTest_pending : (holdTest s).pending = s.pending := by
  unfold holdTest; (try dsimp only); split <;> rfl

@[simp] theorem settleTable_now : (settleTable s).now = s.now := by
  simp [settleTable]
@[simp] theorem settleTable_cfg : (settleTable s).cfg = s.cfg := by
  simp [settleTable]
@[simp] theorem settleTable_ptb : (settleTable s).ptb = s.ptb := by
  simp [settleTable]
@[simp] theorem settleTable_ins : (settleTable s).ins = s.ins := by
  simp [settleTable]
@[simp] theorem settleTable_epi : (settleTable s).epi = s.epi := by
  simp [settleTable]
@[simp] theorem settleTable_trc : (settleTable s).trc = s.trc := by
  simp [settleTable]
@[simp] theorem settleTable_mtr : (settleTable s).mtr = s.mtr := by
  simp [settleTable]
@[simp] theorem settleTable_ses : (settleTable s).ses = s.ses := by
  simp [settleTable]
@[simp] theorem settleTable_stc : (settleTable s).stc = s.stc := by
  simp [settleTable]
@[simp] theorem settleTable_flt : (settleTable s).flt = s.flt := by
  simp [settleTable]
@[simp] theorem settleTable_vlk : (settleTable s).vlk = s.vlk := by
  simp [settleTable]
@[simp] theorem settleTable_trm : (settleTable s).trm = s.trm := by
  simp [settleTable]
@[simp] theorem settleTable_pending : (settleTable s).pending = s.pending := by
  simp [settleTable]

@[simp] theorem settleDemand_now (b : Dmu) : (settleDemand b s).now = s.now := by
  unfold settleDemand; (try dsimp only); split <;> simp
@[simp] theorem settleDemand_cfg (b : Dmu) : (settleDemand b s).cfg = s.cfg := by
  unfold settleDemand; (try dsimp only); split <;> simp
@[simp] theorem settleDemand_ptb (b : Dmu) : (settleDemand b s).ptb = s.ptb := by
  unfold settleDemand; (try dsimp only); split <;> simp
@[simp] theorem settleDemand_ins (b : Dmu) : (settleDemand b s).ins = s.ins := by
  unfold settleDemand; (try dsimp only); split <;> simp
@[simp] theorem settleDemand_epi (b : Dmu) : (settleDemand b s).epi = s.epi := by
  unfold settleDemand; (try dsimp only); split <;> simp
@[simp] theorem settleDemand_trc (b : Dmu) : (settleDemand b s).trc = s.trc := by
  unfold settleDemand; (try dsimp only); split <;> simp
@[simp] theorem settleDemand_mtr (b : Dmu) : (settleDemand b s).mtr = s.mtr := by
  unfold settleDemand; (try dsimp only); split <;> simp
@[simp] theorem settleDemand_ses (b : Dmu) : (settleDemand b s).ses = s.ses := by
  unfold settleDemand; (try dsimp only); split <;> simp
@[simp] theorem settleDemand_stc (b : Dmu) : (settleDemand b s).stc = s.stc := by
  unfold settleDemand; (try dsimp only); split <;> simp
@[simp] theorem settleDemand_flt (b : Dmu) : (settleDemand b s).flt = s.flt := by
  unfold settleDemand; (try dsimp only); split <;> simp
@[simp] theorem settleDemand_vlk (b : Dmu) : (settleDemand b s).vlk = s.vlk := by
  unfold settleDemand; (try dsimp only); split <;> simp
@[simp] theorem settleDemand_trm (b : Dmu) : (settleDemand b s).trm = s.trm := by
  unfold settleDemand; (try dsimp only); split <;> simp
@[simp] theorem settleDemand_pending (b : Dmu) : (settleDemand b s).pending = s.pending := by
  unfold settleDemand; (try dsimp only); split <;> simp

@[simp] theorem endCalibrate_now (r : Result) (d : List Byte) : (endCalibrate r d s).now = s.now := by
  unfold endCalibrate; (try dsimp only); split <;> rfl
@[simp] theorem endCalibrate_cfg (r : Result) (d : List Byte) : (endCalibrate r d s).cfg = s.cfg := by
  unfold endCalibrate; (try dsimp only); split <;> rfl
@[simp] theorem endCalibrate_ptb (r : Result) (d : List Byte) : (endCalibrate r d s).ptb = s.ptb := by
  unfold endCalibrate; (try dsimp only); split <;> rfl
@[simp] theorem endCalibrate_shu (r : Result) (d : List Byte) : (endCalibrate r d s).shu = s.shu := by
  unfold endCalibrate; (try dsimp only); split <;> rfl
@[simp] theorem endCalibrate_dmu (r : Result) (d : List Byte) : (endCalibrate r d s).dmu = s.dmu := by
  unfold endCalibrate; (try dsimp only); split <;> rfl
@[simp] theorem endCalibrate_htr (r : Result) (d : List Byte) : (endCalibrate r d s).htr = s.htr := by
  unfold endCalibrate; (try dsimp only); split <;> rfl
@[simp] theorem endCalibrate_ins (r : Result) (d : List Byte) : (endCalibrate r d s).ins = s.ins := by
  unfold endCalibrate; (try dsimp only); split <;> rfl
@[simp] theorem endCalibrate_epi (r : Result) (d : List Byte) : (endCalibrate r d s).epi = s.epi := by
  unfold endCalibrate; (try dsimp only); split <;> rfl
@[simp] theorem endCalibrate_trc (r : Result) (d : List Byte) : (endCalibrate r d s).trc = s.trc := by
  unfold endCalibrate; (try dsimp only); split <;> rfl
@[simp] theorem endCalibrate_mtr (r : Result) (d : List Byte) : (endCalibrate r d s).mtr = s.mtr := by
  unfold endCalibrate; (try dsimp only); split <;> rfl
@[simp] theorem endCalibrate_ses (r : Result) (d : List Byte) : (endCalibrate r d s).ses = s.ses := by
  unfold endCalibrate; (try dsimp only); split <;> rfl
@[simp] theorem endCalibrate_stc (r : Result) (d : List Byte) : (endCalibrate r d s).stc = s.stc := by
  unfold endCalibrate; (try dsimp only); split <;> rfl
@[simp] theorem endCalibrate_flt (r : Result) (d : List Byte) : (endCalibrate r d s).flt = s.flt := by
  unfold endCalibrate; (try dsimp only); split <;> rfl
@[simp] theorem endCalibrate_trm (r : Result) (d : List Byte) : (endCalibrate r d s).trm = s.trm := by
  unfold endCalibrate; (try dsimp only); split <;> rfl
@[simp] theorem endCalibrate_dli (r : Result) (d : List Byte) : (endCalibrate r d s).dli = s.dli := by
  unfold endCalibrate; (try dsimp only); split <;> rfl
@[simp] theorem endCalibrate_pending (r : Result) (d : List Byte) : (endCalibrate r d s).pending = s.pending := by
  unfold endCalibrate; (try dsimp only); split <;> rfl

@[simp] theorem abandonSlot_now : (abandonSlot s).now = s.now := by
  unfold abandonSlot; (try dsimp only); split <;> simp
@[simp] theorem abandonSlot_cfg : (abandonSlot s).cfg = s.cfg := by
  unfold abandonSlot; (try dsimp only); split <;> simp
@[simp] theorem abandonSlot_ptb : (abandonSlot s).ptb = s.ptb := by
  unfold abandonSlot; (try dsimp only); split <;> simp
@[simp] theorem abandonSlot_shu : (abandonSlot s).shu = s.shu := by
  unfold abandonSlot; (try dsimp only); split <;> simp
@[simp] theorem abandonSlot_dmu : (abandonSlot s).dmu = s.dmu := by
  unfold abandonSlot; (try dsimp only); split <;> simp
@[simp] theorem abandonSlot_htr : (abandonSlot s).htr = s.htr := by
  unfold abandonSlot; (try dsimp only); split <;> simp
@[simp] theorem abandonSlot_ins : (abandonSlot s).ins = s.ins := by
  unfold abandonSlot; (try dsimp only); split <;> simp
@[simp] theorem abandonSlot_epi : (abandonSlot s).epi = s.epi := by
  unfold abandonSlot; (try dsimp only); split <;> simp
@[simp] theorem abandonSlot_trc : (abandonSlot s).trc = s.trc := by
  unfold abandonSlot; (try dsimp only); split <;> simp
@[simp] theorem abandonSlot_ses : (abandonSlot s).ses = s.ses := by
  unfold abandonSlot; (try dsimp only); split <;> simp
@[simp] theorem abandonSlot_stc : (abandonSlot s).stc = s.stc := by
  unfold abandonSlot; (try dsimp only); split <;> simp
@[simp] theorem abandonSlot_flt : (abandonSlot s).flt = s.flt := by
  unfold abandonSlot; (try dsimp only); split <;> simp
@[simp] theorem abandonSlot_trm : (abandonSlot s).trm = s.trm := by
  unfold abandonSlot; (try dsimp only); split <;> simp
@[simp] theorem abandonSlot_dli : (abandonSlot s).dli = s.dli := by
  unfold abandonSlot; (try dsimp only); split <;> simp
@[simp] theorem abandonSlot_pending : (abandonSlot s).pending = s.pending := by
  unfold abandonSlot; (try dsimp only); split <;> simp

@[simp] theorem partialInterval_now : (partialInterval s).now = s.now := by
  unfold partialInterval; (try dsimp only); split <;> rfl
@[simp] theorem partialInterval_cfg : (partialInterval s).cfg = s.cfg := by
  unfold partialInterval; (try dsimp only); split <;> rfl
@[simp] theorem partialInterval_ptb : (partialInterval s).ptb = s.ptb := by
  unfold partialInterval; (try dsimp only); split <;> rfl
@[simp] theorem partialInterval_shu : (partialInterval s).shu = s.shu := by
  unfold partialInterval; (try dsimp only); split <;> rfl
@[simp] theorem partialInterval_dmu : (partialInterval s).dmu = s.dmu := by
  unfold partialInterval; (try dsimp only); split <;> rfl
@[simp] theorem partialInterval_htr : (partialInterval s).htr = s.htr := by
  unfold partialInterval; (try dsimp only); split <;> rfl
@[simp] theorem partialInterval_ins : (partialInterval s).ins = s.ins := by
  unfold partialInterval; (try dsimp only); split <;> rfl
@[simp] theorem partialInterval_epi : (partialInterval s).epi = s.epi := by
  unfold partialInterval; (try dsimp only); split <;> rfl
@[simp] theorem partialInterval_trc : (partialInterval s).trc = s.trc := by
  unfold partialInterval; (try dsimp only); split <;> rfl
@[simp] theorem partialInterval_stc : (partialInterval s).stc = s.stc := by
  unfold partialInterval; (try dsimp only); split <;> rfl
@[simp] theorem partialInterval_flt : (partialInterval s).flt = s.flt := by
  unfold partialInterval; (try dsimp only); split <;> rfl
@[simp] theorem partialInterval_vlk : (partialInterval s).vlk = s.vlk := by
  unfold partialInterval; (try dsimp only); split <;> rfl
@[simp] theorem partialInterval_trm : (partialInterval s).trm = s.trm := by
  unfold partialInterval; (try dsimp only); split <;> rfl
@[simp] theorem partialInterval_dli : (partialInterval s).dli = s.dli := by
  unfold partialInterval; (try dsimp only); split <;> rfl
@[simp] theorem partialInterval_pending : (partialInterval s).pending = s.pending := by
  unfold partialInterval; (try dsimp only); split <;> rfl

@[simp] theorem closeSession_now (r : CloseReason) (c : Option FaultCode) : (closeSession r c s).now = s.now := by
  simp [closeSession]
@[simp] theorem closeSession_cfg (r : CloseReason) (c : Option FaultCode) : (closeSession r c s).cfg = s.cfg := by
  simp [closeSession]
@[simp] theorem closeSession_ptb (r : CloseReason) (c : Option FaultCode) : (closeSession r c s).ptb = s.ptb := by
  simp [closeSession]
@[simp] theorem closeSession_shu (r : CloseReason) (c : Option FaultCode) : (closeSession r c s).shu = s.shu := by
  simp [closeSession]
@[simp] theorem closeSession_htr (r : CloseReason) (c : Option FaultCode) : (closeSession r c s).htr = s.htr := by
  simp [closeSession]
@[simp] theorem closeSession_ins (r : CloseReason) (c : Option FaultCode) : (closeSession r c s).ins = s.ins := by
  simp [closeSession]
@[simp] theorem closeSession_epi (r : CloseReason) (c : Option FaultCode) : (closeSession r c s).epi = s.epi := by
  simp [closeSession]
@[simp] theorem closeSession_trc (r : CloseReason) (c : Option FaultCode) : (closeSession r c s).trc = s.trc := by
  simp [closeSession]
@[simp] theorem closeSession_stc (r : CloseReason) (c : Option FaultCode) : (closeSession r c s).stc = s.stc := by
  simp [closeSession]
@[simp] theorem closeSession_flt (r : CloseReason) (c : Option FaultCode) : (closeSession r c s).flt = s.flt := by
  simp [closeSession]
@[simp] theorem closeSession_trm (r : CloseReason) (c : Option FaultCode) : (closeSession r c s).trm = s.trm := by
  simp [closeSession]
@[simp] theorem closeSession_dli (r : CloseReason) (c : Option FaultCode) : (closeSession r c s).dli = s.dli := by
  simp [closeSession]
@[simp] theorem closeSession_pending (r : CloseReason) (c : Option FaultCode) : (closeSession r c s).pending = s.pending := by
  simp [closeSession]

@[simp] theorem depart_now (r : CloseReason) (c : Option FaultCode) (op : OpState) : (depart r c op s).now = s.now := by
  simp [depart]
@[simp] theorem depart_cfg (r : CloseReason) (c : Option FaultCode) (op : OpState) : (depart r c op s).cfg = s.cfg := by
  simp [depart]
@[simp] theorem depart_ptb (r : CloseReason) (c : Option FaultCode) (op : OpState) : (depart r c op s).ptb = s.ptb := by
  simp [depart]
@[simp] theorem depart_epi (r : CloseReason) (c : Option FaultCode) (op : OpState) : (depart r c op s).epi = s.epi := by
  simp [depart]
@[simp] theorem depart_trc (r : CloseReason) (c : Option FaultCode) (op : OpState) : (depart r c op s).trc = s.trc := by
  simp [depart]
@[simp] theorem depart_flt (r : CloseReason) (c : Option FaultCode) (op : OpState) : (depart r c op s).flt = s.flt := by
  simp [depart]
@[simp] theorem depart_trm (r : CloseReason) (c : Option FaultCode) (op : OpState) : (depart r c op s).trm = s.trm := by
  simp [depart]
@[simp] theorem depart_pending (r : CloseReason) (c : Option FaultCode) (op : OpState) : (depart r c op s).pending = s.pending := by
  simp [depart]

@[simp] theorem moveTo_now (op : OpState) : (moveTo op s).now = s.now := by
  simp [moveTo]
@[simp] theorem moveTo_cfg (op : OpState) : (moveTo op s).cfg = s.cfg := by
  simp [moveTo]
@[simp] theorem moveTo_ptb (op : OpState) : (moveTo op s).ptb = s.ptb := by
  simp [moveTo]
@[simp] theorem moveTo_ins (op : OpState) : (moveTo op s).ins = s.ins := by
  simp [moveTo]
@[simp] theorem moveTo_epi (op : OpState) : (moveTo op s).epi = s.epi := by
  simp [moveTo]
@[simp] theorem moveTo_trc (op : OpState) : (moveTo op s).trc = s.trc := by
  simp [moveTo]
@[simp] theorem moveTo_mtr (op : OpState) : (moveTo op s).mtr = s.mtr := by
  simp [moveTo]
@[simp] theorem moveTo_ses (op : OpState) : (moveTo op s).ses = s.ses := by
  simp [moveTo]
@[simp] theorem moveTo_flt (op : OpState) : (moveTo op s).flt = s.flt := by
  simp [moveTo]
@[simp] theorem moveTo_trm (op : OpState) : (moveTo op s).trm = s.trm := by
  simp [moveTo]
@[simp] theorem moveTo_pending (op : OpState) : (moveTo op s).pending = s.pending := by
  simp [moveTo]

@[simp] theorem enterHalted_now : (enterHalted s).now = s.now := by
  simp [enterHalted]
@[simp] theorem enterHalted_cfg : (enterHalted s).cfg = s.cfg := by
  simp [enterHalted]
@[simp] theorem enterHalted_shu : (enterHalted s).shu = s.shu := by
  simp [enterHalted]
@[simp] theorem enterHalted_dmu : (enterHalted s).dmu = s.dmu := by
  simp [enterHalted]
@[simp] theorem enterHalted_htr : (enterHalted s).htr = s.htr := by
  simp [enterHalted]
@[simp] theorem enterHalted_ins : (enterHalted s).ins = s.ins := by
  simp [enterHalted]
@[simp] theorem enterHalted_trc : (enterHalted s).trc = s.trc := by
  simp [enterHalted]
@[simp] theorem enterHalted_mtr : (enterHalted s).mtr = s.mtr := by
  simp [enterHalted]
@[simp] theorem enterHalted_ses : (enterHalted s).ses = s.ses := by
  simp [enterHalted]
@[simp] theorem enterHalted_stc : (enterHalted s).stc = s.stc := by
  simp [enterHalted]
@[simp] theorem enterHalted_flt : (enterHalted s).flt = s.flt := by
  simp [enterHalted]
@[simp] theorem enterHalted_vlk : (enterHalted s).vlk = s.vlk := by
  simp [enterHalted]
@[simp] theorem enterHalted_trm : (enterHalted s).trm = s.trm := by
  simp [enterHalted]
@[simp] theorem enterHalted_pending : (enterHalted s).pending = s.pending := by
  simp [enterHalted]

@[simp] theorem halt_now (c : FaultCode) : (halt c s).now = s.now := by
  unfold halt; (try dsimp only); split <;> simp
@[simp] theorem halt_cfg (c : FaultCode) : (halt c s).cfg = s.cfg := by
  unfold halt; (try dsimp only); split <;> simp
@[simp] theorem halt_trc (c : FaultCode) : (halt c s).trc = s.trc := by
  unfold halt; (try dsimp only); split <;> simp
@[simp] theorem halt_flt (c : FaultCode) : (halt c s).flt = s.flt := by
  unfold halt; (try dsimp only); split <;> simp
@[simp] theorem halt_trm (c : FaultCode) : (halt c s).trm = s.trm := by
  unfold halt; (try dsimp only); split <;> simp
@[simp] theorem halt_pending (c : FaultCode) : (halt c s).pending = s.pending := by
  unfold halt; (try dsimp only); split <;> simp

@[simp] theorem raise_now (c : FaultCode) (d : FaultDetail) : (raise c d s).now = s.now := by
  unfold raise; (try dsimp only); (try dsimp only); split <;> simp
@[simp] theorem raise_cfg (c : FaultCode) (d : FaultDetail) : (raise c d s).cfg = s.cfg := by
  unfold raise; (try dsimp only); (try dsimp only); split <;> simp
@[simp] theorem raise_trc (c : FaultCode) (d : FaultDetail) : (raise c d s).trc = s.trc := by
  unfold raise; (try dsimp only); (try dsimp only); split <;> simp
@[simp] theorem raise_trm (c : FaultCode) (d : FaultDetail) : (raise c d s).trm = s.trm := by
  unfold raise; (try dsimp only); (try dsimp only); split <;> simp
@[simp] theorem raise_pending (c : FaultCode) (d : FaultDetail) : (raise c d s).pending = s.pending := by
  unfold raise; (try dsimp only); (try dsimp only); split <;> simp

@[simp] theorem enterReady_now : (enterReady s).now = s.now := by
  simp [enterReady]
@[simp] theorem enterReady_cfg : (enterReady s).cfg = s.cfg := by
  simp [enterReady]
@[simp] theorem enterReady_ins : (enterReady s).ins = s.ins := by
  simp [enterReady]
@[simp] theorem enterReady_trc : (enterReady s).trc = s.trc := by
  simp [enterReady]
@[simp] theorem enterReady_ses : (enterReady s).ses = s.ses := by
  simp [enterReady]
@[simp] theorem enterReady_stc : (enterReady s).stc = s.stc := by
  simp [enterReady]
@[simp] theorem enterReady_flt : (enterReady s).flt = s.flt := by
  simp [enterReady]
@[simp] theorem enterReady_vlk : (enterReady s).vlk = s.vlk := by
  simp [enterReady]
@[simp] theorem enterReady_trm : (enterReady s).trm = s.trm := by
  simp [enterReady]
@[simp] theorem enterReady_pending : (enterReady s).pending = s.pending := by
  simp [enterReady]

@[simp] theorem finish_now (b : Bool) (s0 : State) : (finish b s0 s).now = s.now := rfl
@[simp] theorem finish_cfg (b : Bool) (s0 : State) : (finish b s0 s).cfg = s.cfg := rfl
@[simp] theorem finish_ptb (b : Bool) (s0 : State) : (finish b s0 s).ptb = s.ptb := rfl
@[simp] theorem finish_shu (b : Bool) (s0 : State) : (finish b s0 s).shu = s.shu := rfl
@[simp] theorem finish_dmu (b : Bool) (s0 : State) : (finish b s0 s).dmu = s.dmu := rfl
@[simp] theorem finish_ins (b : Bool) (s0 : State) : (finish b s0 s).ins = s.ins := rfl
@[simp] theorem finish_epi (b : Bool) (s0 : State) : (finish b s0 s).epi = s.epi := rfl
@[simp] theorem finish_trc (b : Bool) (s0 : State) : (finish b s0 s).trc = s.trc := rfl
@[simp] theorem finish_mtr (b : Bool) (s0 : State) : (finish b s0 s).mtr = s.mtr := rfl
@[simp] theorem finish_ses (b : Bool) (s0 : State) : (finish b s0 s).ses = s.ses := rfl
@[simp] theorem finish_stc (b : Bool) (s0 : State) : (finish b s0 s).stc = s.stc := rfl
@[simp] theorem finish_flt (b : Bool) (s0 : State) : (finish b s0 s).flt = s.flt := rfl
@[simp] theorem finish_vlk (b : Bool) (s0 : State) : (finish b s0 s).vlk = s.vlk := rfl
@[simp] theorem finish_trm (b : Bool) (s0 : State) : (finish b s0 s).trm = s.trm := rfl
@[simp] theorem finish_dli (b : Bool) (s0 : State) : (finish b s0 s).dli = s.dli := rfl
@[simp] theorem finish_pending (b : Bool) (s0 : State) : (finish b s0 s).pending = s.pending := rfl

@[simp] theorem freezeTrace_now : (freezeTrace s).now = s.now := by
  unfold freezeTrace; (try dsimp only); split <;> rfl
@[simp] theorem freezeTrace_cfg : (freezeTrace s).cfg = s.cfg := by
  unfold freezeTrace; (try dsimp only); split <;> rfl
@[simp] theorem freezeTrace_ptb : (freezeTrace s).ptb = s.ptb := by
  unfold freezeTrace; (try dsimp only); split <;> rfl
@[simp] theorem freezeTrace_shu : (freezeTrace s).shu = s.shu := by
  unfold freezeTrace; (try dsimp only); split <;> rfl
@[simp] theorem freezeTrace_dmu : (freezeTrace s).dmu = s.dmu := by
  unfold freezeTrace; (try dsimp only); split <;> rfl
@[simp] theorem freezeTrace_htr : (freezeTrace s).htr = s.htr := by
  unfold freezeTrace; (try dsimp only); split <;> rfl
@[simp] theorem freezeTrace_ins : (freezeTrace s).ins = s.ins := by
  unfold freezeTrace; (try dsimp only); split <;> rfl
@[simp] theorem freezeTrace_epi : (freezeTrace s).epi = s.epi := by
  unfold freezeTrace; (try dsimp only); split <;> rfl
@[simp] theorem freezeTrace_mtr : (freezeTrace s).mtr = s.mtr := by
  unfold freezeTrace; (try dsimp only); split <;> rfl
@[simp] theorem freezeTrace_ses : (freezeTrace s).ses = s.ses := by
  unfold freezeTrace; (try dsimp only); split <;> rfl
@[simp] theorem freezeTrace_stc : (freezeTrace s).stc = s.stc := by
  unfold freezeTrace; (try dsimp only); split <;> rfl
@[simp] theorem freezeTrace_flt : (freezeTrace s).flt = s.flt := by
  unfold freezeTrace; (try dsimp only); split <;> rfl
@[simp] theorem freezeTrace_trm : (freezeTrace s).trm = s.trm := by
  unfold freezeTrace; (try dsimp only); split <;> rfl
@[simp] theorem freezeTrace_dli : (freezeTrace s).dli = s.dli := by
  unfold freezeTrace; (try dsimp only); split <;> rfl
@[simp] theorem freezeTrace_pending : (freezeTrace s).pending = s.pending := by
  unfold freezeTrace; (try dsimp only); split <;> rfl

@[simp] theorem tableChanged_now : (tableChanged s).now = s.now := by
  simp [tableChanged]
@[simp] theorem tableChanged_cfg : (tableChanged s).cfg = s.cfg := by
  simp [tableChanged]
@[simp] theorem tableChanged_ins : (tableChanged s).ins = s.ins := by
  simp [tableChanged]
@[simp] theorem tableChanged_epi : (tableChanged s).epi = s.epi := by
  simp [tableChanged]
@[simp] theorem tableChanged_trc : (tableChanged s).trc = s.trc := by
  simp [tableChanged]
@[simp] theorem tableChanged_mtr : (tableChanged s).mtr = s.mtr := by
  simp [tableChanged]
@[simp] theorem tableChanged_ses : (tableChanged s).ses = s.ses := by
  simp [tableChanged]
@[simp] theorem tableChanged_stc : (tableChanged s).stc = s.stc := by
  simp [tableChanged]
@[simp] theorem tableChanged_trm : (tableChanged s).trm = s.trm := by
  simp [tableChanged]
@[simp] theorem tableChanged_pending : (tableChanged s).pending = s.pending := by
  simp [tableChanged]

end Sys2Proof.Machine
end

