-- ==== Sys2Proof/Laws/Ops.lean ====
section
/-! SUPPORT. What each shared operation can do, said once, for the proofs to cite. -/

namespace Sys2Proof.Machine

/-! ## The four cases of R37 -/

/-- The grant applied reads as the four cases of R37 written out. -/
theorem applyGrant_eq (u : Shu) : u.applyGrant = grantTaken u := rfl

/-- An ANNOUNCE is queued in every case of R37 but the last. -/
theorem grantMoves_iff (u : Shu) : u.grantMoves = true ↔ u.record.grant < u.limit ∨ u.record.grant ≠ u.intent := by
  simp [Shu.grantMoves]

/-! ## The event's frame -/

/-- Where an event leaves the heater and its allowance alone, its tail does nothing. -/
theorem finish_quiet {before after : State} (h : after.htr = before.htr)
    (ha : after.dmu.heaterAllow = before.dmu.heaterAllow) : finish false before after = after := by
  have h1 : testDue before after = false := by
    simp [testDue, h, ha]
  have h2 : (after.htr).startIdle after.now (inSession after) before.htr.zones.anyHeating = after.htr := by
    unfold Htr.startIdle
    rw [h]
    cases before.htr.zones.anyHeating <;> simp
  simp [finish, h1, h2]

/-- An event that leaves the heater and its allowance alone is its own work on the state to which time has passed. -/
theorem event_quiet {t : Nat} {f : State → State} {s : State} (h : (f (elapse t s)).htr = (elapse t s).htr)
    (ha : (f (elapse t s)).dmu.heaterAllow = (elapse t s).dmu.heaterAllow) : event t f s = f (elapse t s) := by
  unfold event
  exact finish_quiet h ha

/-- A moment that has come already lets no time pass. -/
theorem elapse_passed {t : Nat} {s : State} (h : t ≤ s.now) : elapse t s = s := by simp [elapse, h]

/-- Time does not go back, and reaches the moment asked for. -/
theorem elapse_now (t : Nat) (s : State) : (elapse t s).now = max s.now t := by
  unfold elapse
  split <;> simp [passTime] <;> omega

/-! ## Requests -/

/-- A ready request is not discarded, whatever its code. -/
theorem takeRequest_ready {code tag : Byte} {params : List Byte} {serve : State → State} {s : State}
    (h : RequestReady params s) :
    takeRequest code tag params serve s = handOver code tag params serve (closeTransaction s) := by
  obtain ⟨x, hx, hc, hb, hs⟩ := h
  have hd : discarded code x params s.vlk.slot = false := by simp [discarded, hb, hs, hc]
  simp [takeRequest, hx, hd]

/-- A request served, of its own length, is handed to its owning block. -/
theorem handOver_served {code tag : Byte} {params : List Byte} {serve : State → State} {s : State}
    (h : served code s.stc.op = true) (hl : params.length = paramLength code) :
    handOver code tag params serve s = serve s := by simp [handOver, h, hl]

/-! ## Zones -/

theorem Quad.get_set {α : Type} (q : Quad α) (z w : ZoneId) (x : α) :
    (q.set z x).get w = if w = z then x else q.get w := by cases z <;> cases w <;> rfl

@[simp] theorem Quad.get_map {α β : Type} (f : α → β) (q : Quad α) (z : ZoneId) : (q.map f).get z = f (q.get z) := by
  cases z <;> rfl

theorem HeatTimeKept.trans {limit : Nat} {x y z : Zone} (h : HeatTimeKept limit x y) (k : HeatTimeKept limit y z) :
    HeatTimeKept limit x z := by
  unfold HeatTimeKept at *
  omega

theorem ZonesKept.refl (limit : Nat) (q : Quad Zone) : ZonesKept limit q q := fun _ =>
  ⟨rfl, .inl rfl, rfl, Iff.rfl, Iff.rfl⟩

theorem ZonesKept.trans {limit : Nat} {p q r : Quad Zone} (h : ZonesKept limit p q) (k : ZonesKept limit q r) :
    ZonesKept limit p r := fun z =>
  ⟨(k z).1.trans (h z).1, (h z).2.1.trans (k z).2.1, (k z).2.2.1.trans (h z).2.2.1,
    (k z).2.2.2.1.trans (h z).2.2.2.1, (k z).2.2.2.2.trans (h z).2.2.2.2⟩

/-- Replacing one zone by an image that keeps its figures and stays off OUT and WARM as it was keeps the zones. -/
theorem zonesKept_set {limit : Nat} {q : Quad Zone} {w : ZoneId} {x : Zone} (ht : x.temp = (q.get w).temp)
    (hh : HeatTimeKept limit (q.get w) x) (hc : x.outCause = (q.get w).outCause)
    (ho : x.state = .out ↔ (q.get w).state = .out) (hw : x.state = .warm ↔ (q.get w).state = .warm) :
    ZonesKept limit q (q.set w x) := by
  intro z
  rw [Quad.get_set]
  split
  · subst_vars; exact ⟨ht, hh, hc, ho, hw⟩
  · exact ZonesKept.refl limit q z

/-- A heating time brought just short of the limit is as it was, or stood at the limit (R78). -/
theorem heatTimeShort_kept (limit : Nat) (x : Zone) :
    x.heatTimeShort limit = x.heatTime ∨ limit * 1000000 ≤ x.heatTime ∧ x.heatTimeShort limit = limit * 1000000 - 1 := by
  unfold Zone.heatTimeShort
  split
  · omega
  · exact .inl rfl

/-- A zone switched off keeps its figures and goes from HEATING to WAITING at most. -/
theorem switchOff_zonesKept (limit : Nat) (q : Quad Zone) (w : ZoneId) :
    ZonesKept limit q (q.set w ((q.get w).switchOff limit)) := by
  generalize hx : q.get w = x
  have h : ((x.switchOff limit).temp = x.temp ∧ (x.switchOff limit).outCause = x.outCause) ∧
      HeatTimeKept limit x (x.switchOff limit) ∧
      ((x.switchOff limit).state = .out ↔ x.state = .out) ∧ ((x.switchOff limit).state = .warm ↔ x.state = .warm) := by
    unfold Zone.switchOff
    split
    · rename_i hh
      have hs : x.state = .heating := by simpa [Zone.heats] using hh
      exact ⟨⟨rfl, rfl⟩, heatTimeShort_kept limit x, by simp [hs], by simp [hs]⟩
    · exact ⟨⟨rfl, rfl⟩, .inl rfl, Iff.rfl, Iff.rfl⟩
  obtain ⟨⟨a, b⟩, c, d, e⟩ := h
  exact zonesKept_set (hx ▸ a) (hx ▸ c) (hx ▸ b) (hx ▸ d) (hx ▸ e)

/-- The switch-off for allowance keeps the zones' figures. -/
theorem shedZones_zonesKept (limit allow : Nat) (ratings : Quad Nat) (zs : List ZoneId) (q : Quad Zone) :
    ZonesKept limit q (shedZones limit allow ratings zs q) := by
  induction zs generalizing q with
  | nil => exact ZonesKept.refl limit q
  | cons z zs ih =>
    unfold shedZones
    split
    · exact ZonesKept.refl limit q
    · exact (switchOff_zonesKept limit q z).trans (ih _)

/-- The zone a switch-on test finds is WAITING. -/
theorem candidate_waiting {b : Bool} {allow : Nat} {cfg : Settings} {h : Htr} {z : ZoneId}
    (hz : h.candidate b allow cfg = some z) : (h.zones.get z).state = .waiting := by
  unfold Htr.candidate at hz
  split at hz
  · simp at hz
  · rename_i w hw
    split at hz
    · simp only [Option.some.injEq] at hz
      subst hz
      simpa using List.find?_some hw
    · simp at hz

/-- The switch-on test keeps the zones' figures, the window flag and the conversions. -/
theorem switchOn_kept (now : Nat) (b : Bool) (allow : Nat) (cfg : Settings) (h : Htr) :
    ZonesKept cfg.doseLimit h.zones (h.switchOn now b allow cfg).zones ∧ (h.switchOn now b allow cfg).window = h.window ∧
      (h.switchOn now b allow cfg).cycleStart = h.cycleStart ∧ (h.switchOn now b allow cfg).converted = h.converted := by
  unfold Htr.switchOn
  split
  · exact ⟨ZonesKept.refl _ _, rfl, rfl, rfl⟩
  · rename_i z hz
    have := candidate_waiting hz
    exact ⟨zonesKept_set rfl (.inl rfl) rfl (by simp [this]) (by simp [this]), rfl, rfl, rfl⟩

/-- The idle timer's start keeps everything but the idle timer. -/
theorem startIdle_kept (now : Nat) (b c : Bool) (h : Htr) :
    (h.startIdle now b c).zones = h.zones ∧ (h.startIdle now b c).window = h.window ∧
      (h.startIdle now b c).cycleStart = h.cycleStart ∧ (h.startIdle now b c).converted = h.converted ∧ (h.startIdle now b c).contactor = h.contactor ∧
      (h.startIdle now b c).stagger = h.stagger := by
  unfold Htr.startIdle
  split <;> exact ⟨rfl, rfl, rfl, rfl, rfl, rfl⟩

/-- The tail of an event keeps the zones' figures, the window flag and the conversions. -/
theorem finish_kept (force : Bool) (before after : State) :
    ZonesKept after.cfg.doseLimit after.htr.zones (finish force before after).htr.zones ∧
      (finish force before after).htr.window = after.htr.window ∧
      (finish force before after).htr.cycleStart = after.htr.cycleStart ∧
      (finish force before after).htr.converted = after.htr.converted := by
  unfold finish
  obtain ⟨h1, h2, h3, h4⟩ := switchOn_kept after.now (inSession after) after.dmu.heaterAllow after.cfg after.htr
  simp only []
  split
  · obtain ⟨k1, k2, k3, k4, _⟩ := startIdle_kept after.now (inSession after) before.htr.zones.anyHeating
      (after.htr.switchOn after.now (inSession after) after.dmu.heaterAllow after.cfg)
    exact ⟨k1 ▸ h1, k2.trans h2, k3.trans h3, k4.trans h4⟩
  · obtain ⟨k1, k2, k3, k4, _⟩ := startIdle_kept after.now (inSession after) before.htr.zones.anyHeating after.htr
    exact ⟨k1 ▸ ZonesKept.refl _ _, k2, k3, k4⟩

/-! ## The queue -/

/-- Asking for ANNOUNCE twice is asking for it once (R147). -/
theorem queueAnnounce_twice (op : OpState) (d : Dli) :
    (d.queueFrame op .announce .none).queueFrame op .announce .none = d.queueFrame op .announce .none := by
  have key : ∀ e : Dli, e.queueFrame op .announce .none = e ∨
      (op ≠ .start ∧ e.attempting .announce = true ∧ e.queueFrame op .announce .none =
        { e with queue := e.queue.set .announce (some { content := .none, failed := 0 }),
                 attempt := e.attempt.map Attempt.refresh }) ∨
      (op ≠ .start ∧ e.attempting .announce = false ∧ e.queueFrame op .announce .none =
        { e with queue := e.queue.set .announce (some { content := .none, failed := 0 }) }) := by
    intro e
    unfold Dli.queueFrame
    split
    · exact .inl rfl
    · split
      · exact .inr (.inl ⟨‹_›, ‹_›, rfl⟩)
      · split
        · exact .inl rfl
        · exact .inr (.inr ⟨‹_›, by simpa using ‹¬e.attempting .announce = true›, rfl⟩)
  rcases key d with h | ⟨ho, ha, h⟩ | ⟨ho, ha, h⟩
  · rw [h, h]
  · rw [h]
    cases hd : d.attempt with
    | none => simp [Dli.attempting, hd] at ha
    | some x =>
      have hk : x.kind = .announce := by simpa [Dli.attempting, hd] using ha
      simp [Dli.queueFrame, ho, Dli.attempting, Attempt.refresh, hk, TxQueue.set]
  · rw [h]
    have hb : ∀ q, ({ d with queue := q } : Dli).attempting .announce = false := fun q => ha
    simp [Dli.queueFrame, ho, hb, TxQueue.set, TxQueue.get]

/-! ## Grant, hold, split -/

/-- A recomputation and its application: the Share Unit and the queue, exactly. -/
theorem regrant_shu (s : State) :
    (regrant s).shu = { s.shu with record := computeGrant s.grantInputs }.applyGrant := by
  unfold regrant applyGrant
  split <;> rfl

theorem regrant_dli (s : State) :
    (regrant s).dli = if { s.shu with record := computeGrant s.grantInputs }.grantMoves
      then s.dli.queueFrame s.stc.op .announce .none else s.dli := by
  unfold regrant applyGrant
  split <;> rename_i h <;> (try simp only [recomputeGrant] at h) <;> simp [queueFrame, recomputeGrant, h]

/-- The hold test: the Share Unit and the queue, exactly. -/
theorem holdTest_shu (s : State) :
    (holdTest s).shu = if holdComplete s.now s.cfg.ta s.ptb.entries s.shu then s.shu.complete else s.shu := by
  unfold holdTest
  split <;> rfl

theorem holdTest_dli (s : State) :
    (holdTest s).dli = if holdComplete s.now s.cfg.ta s.ptb.entries s.shu
      then s.dli.queueFrame s.stc.op .announce .none else s.dli := by
  unfold holdTest
  split <;> rfl

@[simp] theorem applyGrant_record (u : Shu) : u.applyGrant.record = u.record := by
  unfold Shu.applyGrant Shu.steady
  simp only []
  repeat' split
  all_goals rfl

@[simp] theorem complete_record (u : Shu) : u.complete.record = u.record := rfl

@[simp] theorem lowerSetpoint_record (a : Nat) (u : Shu) : (u.lowerSetpoint a).record = u.record := rfl

/-- The split made: the Demand Unit, the Share Unit and the zones. -/
theorem resplit_spec (s : State) :
    (resplit s).dmu = s.dmu.split s.cfg.tPermit s.shu.limit ∧
      (resplit s).shu = s.shu.lowerSetpoint (resplit s).dmu.chargerAllow ∧
      ZonesKept s.cfg.doseLimit s.htr.zones (resplit s).htr.zones ∧ (resplit s).htr.window = s.htr.window ∧
      (resplit s).htr.cycleStart = s.htr.cycleStart ∧ (resplit s).htr.converted = s.htr.converted :=
  ⟨rfl, rfl, shedZones_zonesKept _ _ _ _ _, rfl, rfl, rfl⟩

/-- The split changes the order and the allowances alone, so the grant's inputs are as before. -/
theorem split_kept (tPermit : Int) (limit : Nat) (d : Dmu) :
    (d.split tPermit limit).ownDemand = d.ownDemand ∧ (d.split tPermit limit).weight = d.weight ∧
      (d.split tPermit limit).tMin = d.tMin ∧ (d.split tPermit limit).target = d.target ∧
      (d.split tPermit limit).departure = d.departure ∧ (d.split tPermit limit).delivered = d.delivered ∧
      (d.split tPermit limit).targetMet = d.targetMet ∧ (d.split tPermit limit).band = d.band ∧
      (d.split tPermit limit).chargerDemand = d.chargerDemand ∧ (d.split tPermit limit).heaterDemand = d.heaterDemand := by
  unfold Dmu.split
  simp only []
  split <;> exact ⟨rfl, rfl, rfl, rfl, rfl, rfl, rfl, rfl, rfl, rfl⟩

theorem resplit_grantInputs (s : State) : (resplit s).grantInputs = s.grantInputs := by
  obtain ⟨h1, h2, _⟩ := split_kept s.cfg.tPermit s.shu.limit s.dmu
  have e : (resplit s).dmu = s.dmu.split s.cfg.tPermit s.shu.limit := rfl
  simp only [State.grantInputs, e, h1, h2, resplit_ptb, resplit_cfg, resplit_ses, resplit_stc]
  rfl

theorem holdTest_grantInputs (s : State) : (holdTest s).grantInputs = s.grantInputs := by simp [State.grantInputs]

theorem regrant_grantInputs (s : State) : (regrant s).grantInputs = s.grantInputs := by simp [State.grantInputs]

theorem finish_grantInputs (b : Bool) (s t : State) : (finish b s t).grantInputs = t.grantInputs := rfl

theorem settleTable_grantInputs (s : State) : (settleTable s).grantInputs = s.grantInputs := by
  unfold settleTable
  rw [resplit_grantInputs, holdTest_grantInputs, regrant_grantInputs]

/-- One grant, the hold test and one split: the Share Unit, exactly. -/
theorem settleTable_shu (s : State) :
    let u := { s.shu with record := computeGrant s.grantInputs }.applyGrant
    (settleTable s).shu =
      (if holdComplete s.now s.cfg.ta s.ptb.entries u then u.complete else u).lowerSetpoint
        (settleTable s).dmu.chargerAllow := by
  show (resplit (holdTest (regrant s))).shu = _
  rw [(resplit_spec _).2.1, holdTest_shu, regrant_shu]
  simp [settleTable]

theorem settleTable_dmu (s : State) :
    (settleTable s).dmu = s.dmu.split s.cfg.tPermit (settleTable s).shu.limit := by
  show (resplit (holdTest (regrant s))).dmu = _
  rw [(resplit_spec _).1]
  show _ = s.dmu.split s.cfg.tPermit (holdTest (regrant s)).shu.limit
  simp

theorem settleTable_dli (s : State) :
    let u0 : Shu := { s.shu with record := computeGrant s.grantInputs }
    (settleTable s).dli = if u0.grantMoves || holdComplete s.now s.cfg.ta s.ptb.entries u0.applyGrant
      then s.dli.queueFrame s.stc.op .announce .none else s.dli := by
  show (holdTest (regrant s)).dli = _
  rw [holdTest_dli, regrant_shu, regrant_dli]
  simp only [regrant_now, regrant_cfg, regrant_ptb, regrant_stc]
  cases hm : Shu.grantMoves { s.shu with record := computeGrant s.grantInputs } <;>
    cases hc : holdComplete s.now s.cfg.ta s.ptb.entries
      (Shu.applyGrant { s.shu with record := computeGrant s.grantInputs }) <;>
    simp [queueAnnounce_twice]

theorem settleTable_htr (s : State) :
    ZonesKept s.cfg.doseLimit s.htr.zones (settleTable s).htr.zones ∧ (settleTable s).htr.window = s.htr.window ∧
      (settleTable s).htr.cycleStart = s.htr.cycleStart ∧ (settleTable s).htr.converted = s.htr.converted := by
  obtain ⟨_, _, h1, h2, h3, h4⟩ := resplit_spec (holdTest (regrant s))
  simp only [holdTest_htr, regrant_htr, holdTest_cfg, regrant_cfg] at h1 h2 h3 h4
  exact ⟨h1, h2, h3, h4⟩

/-! ## The two rings -/

@[simp] theorem faultAdded_eq (e : FaultEntry) (f : Flt) : faultAdded e f = f.append e := by
  cases h : f.firstOut <;> simp [faultAdded, Flt.append, Config.historyCapacity, h]

@[simp] theorem traceTaken_eq (e : TraceEntry) (t : Trc) : traceTaken e t = t.enter e := rfl

/-- What a raise has put into the fault history, whatever the fault's class: its own entry, and FAULT is pending. -/
theorem raise_raised (c : FaultCode) (d : FaultDetail) (s : State) (h : isStop s.cfg.policies c = false) :
    FaultRaised c d s (raise c d s) := by
  simp [FaultRaised, raise, h, recordFault, post, Marks.post]

/-! ## A change of the table -/

theorem refreshFeeder_ptb (s : State) : (refreshFeeder s).ptb = s.ptb.refreshFeeder s.cfg.feederLimit := by
  unfold refreshFeeder
  simp only []
  split <;> rfl

/-- A change of the table passed on, and the event's tail after it: all it does. -/
theorem tableChanged_settled (force : Bool) (before b : State) :
    TableSettled b (finish force before (tableChanged b)) ∧
      (finish force before (tableChanged b)).ptb.entries = b.ptb.entries ∧
      (finish force before (tableChanged b)).ptb.unlisted = b.ptb.unlisted ∧
      (finish force before (tableChanged b)).epi = b.epi := by
  obtain ⟨z1, z2, z3, z4⟩ := settleTable_htr (refreshFeeder b)
  obtain ⟨f1, f2, f3, f4⟩ := finish_kept force before (tableChanged b)
  have gi : (finish force before (tableChanged b)).grantInputs = (refreshFeeder b).grantInputs := by
    rw [finish_grantInputs]; exact settleTable_grantInputs _
  have hp : (tableChanged b).ptb = b.ptb.refreshFeeder b.cfg.feederLimit := by simp [tableChanged, refreshFeeder_ptb]
  have he : (refreshFeeder b).ptb.entries = b.ptb.entries := by rw [refreshFeeder_ptb]; rfl
  refine ⟨?_, by simp [hp, Ptb.refreshFeeder], by simp [hp, Ptb.refreshFeeder], by simp [tableChanged]⟩
  unfold TableSettled
  simp only [finish_ptb, finish_shu, finish_dmu, finish_dli, finish_flt, finish_vlk, gi, hp]
  have fz : ZonesKept b.cfg.doseLimit (tableChanged b).htr.zones (finish force before (tableChanged b)).htr.zones := by
    simpa [tableChanged] using f1
  refine ⟨?_, by simp [tableChanged], by rw [f2]; simpa [tableChanged] using z2, by rw [f3]; simpa [tableChanged] using z3,
    by rw [f4]; simpa [tableChanged] using z4, ?_, rfl, rfl, ?_, ?_, ?_, ?_, ?_⟩
  · simp [RestKept, tableChanged]
  · refine ZonesKept.trans ?_ fz
    simpa [tableChanged] using z1
  · have := settleTable_shu (refreshFeeder b)
    simp only [refreshFeeder_shu, refreshFeeder_now, refreshFeeder_cfg, he] at this
    exact this
  · have := settleTable_dmu (refreshFeeder b)
    simp only [refreshFeeder_dmu, refreshFeeder_cfg] at this
    exact this
  · have := settleTable_dli (refreshFeeder b)
    simp only [refreshFeeder_shu, refreshFeeder_now, refreshFeeder_cfg, refreshFeeder_dli, refreshFeeder_stc, he] at this
    refine this.trans ?_
    simp only [Bool.or_eq_true, grantMoves_iff, or_assoc]
    rfl
  · simp only [tableChanged, settleTable_flt]
    unfold refreshFeeder Ptb.startsMismatch
    cases hm : b.ptb.mismatch <;> by_cases hf : effectiveFeeder b.cfg.feederLimit b.ptb.entries < b.cfg.feederLimit <;>
      simp [hf, recordFault, post, Ptb.refreshFeeder, clock]
  · simp only [tableChanged, settleTable_vlk]
    unfold refreshFeeder Ptb.startsMismatch
    cases hm : b.ptb.mismatch <;> by_cases hf : effectiveFeeder b.cfg.feederLimit b.ptb.entries < b.cfg.feederLimit <;>
      simp [hf, recordFault, post, Ptb.refreshFeeder, Marks.post]

/-! ## The transmit queue -/

theorem TxQueue.get_set (q : TxQueue) (k j : FrameKind) (e : Option TxEntry) :
    (q.set k e).get j = if j = k then e else q.get j := by cases k <;> cases j <;> rfl

/-- Queueing a kind leaves the other kinds' entries alone. -/
theorem queueFrame_others (op : OpState) (k j : FrameKind) (c : TxContent) (d : Dli) (h : j ≠ k) :
    (d.queueFrame op k c).queue.get j = d.queue.get j := by
  unfold Dli.queueFrame
  repeat' split
  all_goals simp [TxQueue.get_set, h]

/-- A kind other than ANNOUNCE, asked for outside START, stands in the queue with its content and no failures. -/
theorem queueFrame_queued (op : OpState) (k : FrameKind) (c : TxContent) (d : Dli) (ho : op ≠ .start) (hk : k ≠ .announce) :
    (d.queueFrame op k c).queue.get k = some { content := c, failed := 0 } := by
  unfold Dli.queueFrame
  simp only [ho, hk, if_false, decide_false, Bool.and_false, Bool.false_eq_true]
  split <;> simp [TxQueue.get_set]

theorem queueFrame_times (op : OpState) (k : FrameKind) (c : TxContent) (d : Dli) :
    (d.queueFrame op k c).announce = d.announce ∧ (d.queueFrame op k c).sequence = d.sequence ∧
      (d.queueFrame op k c).backoff = d.backoff ∧ (d.queueFrame op k c).gapFrom = d.gapFrom ∧
      (d.queueFrame op k c).framerFrom = d.framerFrom ∧ (d.queueFrame op k c).framerUntil = d.framerUntil ∧
      (d.queueFrame op k c).dropKind = d.dropKind ∧ (d.queueFrame op k c).dropCount = d.dropCount := by
  unfold Dli.queueFrame
  repeat' split
  all_goals exact ⟨rfl, rfl, rfl, rfl, rfl, rfl, rfl, rfl⟩

theorem withdrawEpoch_queue (now : Nat) (d : Dli) : (d.withdrawEpoch now).queue = d.queue.set .epoch none := by
  unfold Dli.withdrawEpoch
  repeat' split
  all_goals rfl

/-! ## Outside SESSION nothing is drawn -/

/-- A grant computed outside SESSION is 0 with NO_SESSION, and takes limit and intent to 0 (R29, R37). -/
theorem regrant_quiet {s : State} (h : s.stc.op ≠ .session) :
    (regrant s).shu.limit = 0 ∧ (regrant s).shu.intent = 0 ∧ (regrant s).shu.record.grant = 0 ∧
      (regrant s).shu.record.zeroCause = .noSession := by
  have hc : s.grantInputs.cause = .noSession := by simp [GrantInputs.cause, State.grantInputs, h]
  have hg : (computeGrant s.grantInputs).grant = 0 := by simp [computeGrant, hc]
  have hz : (computeGrant s.grantInputs).zeroCause = .noSession := by simp [computeGrant, hc]
  rw [regrant_shu]
  unfold Shu.applyGrant Shu.steady
  simp only [hg, Nat.not_lt_zero, if_false]
  by_cases h1 : 0 < s.shu.limit
  · simp [h1, hg, hz]
  · have h1' : s.shu.limit = 0 := by omega
    by_cases h2 : 0 < s.shu.intent
    · simp [h1', h2, hg, hz]
    · have h2' : s.shu.intent = 0 := by omega
      simp [h1', h2', hg, hz]

/-- A split of nothing hands out nothing, and brings the setpoint to 0 (R64, R46). -/
theorem resplit_quiet {s : State} (h : s.shu.limit = 0) :
    (resplit s).shu.limit = 0 ∧ (resplit s).shu.intent = s.shu.intent ∧ (resplit s).shu.setpoint = 0 ∧
      (resplit s).dmu.chargerAllow = 0 ∧ (resplit s).dmu.heaterAllow = 0 := by
  have hd : (s.dmu.split s.cfg.tPermit 0).chargerAllow = 0 ∧ (s.dmu.split s.cfg.tPermit 0).heaterAllow = 0 := by
    unfold Dmu.split
    simp only []
    split <;> simp
  have e : (resplit s).dmu = s.dmu.split s.cfg.tPermit s.shu.limit := rfl
  rw [h] at e
  refine ⟨h, rfl, ?_, by rw [e]; exact hd.1, by rw [e]; exact hd.2⟩
  rw [(resplit_spec s).2.1, e, Shu.lowerSetpoint, hd.1, Nat.min_zero]

/-! ## Leaving SESSION, LINKED and LISTENING -/

/-- A session's close posts SESSION_CLOSED and no other mark. -/
theorem closeSession_fault (reason : CloseReason) (fault : Option FaultCode) (s : State) :
    (closeSession reason fault s).vlk.marks = { s.vlk.marks with sessionClosed := true } := by
  have h : ∀ x : State, (abandonSlot x).vlk.marks = x.vlk.marks := by
    intro x
    unfold abandonSlot endCalibrate
    split
    · rfl
    · simp only []; split <;> rfl
  show (abandonSlot _).vlk.marks = _
  rw [h]
  simp [post, Marks.post]

/-- The state in which a departure recomputes the grant: session closed, epoch work and heating ended, the new state taken. -/
def departing (reason : CloseReason) (fault : Option FaultCode) (dest : OpState) (s : State) : State :=
  let s1 := closeSession reason fault s
  let s2 := withdrawEpoch { s1 with ins := s1.ins.leaveSession }
  setOp dest { s2 with htr := s2.htr.leaveSession s2.cfg.doseLimit }

/-- A departure's last steps, from the state in which the grant is recomputed. -/
theorem depart_eq (reason : CloseReason) (fault : Option FaultCode) (dest : OpState) (s : State) :
    depart reason fault dest s =
      { resplit (regrant (departing reason fault dest s)) with
        shu := (resplit (regrant (departing reason fault dest s))).shu.leaveSession
        stc := { (resplit (regrant (departing reason fault dest s))).stc with contactor := false } } := rfl

/-- The departure from SESSION (R161): what ends with it. -/
theorem depart_spec (reason : CloseReason) (fault : Option FaultCode) (dest : OpState) (s : State) (hd : dest ≠ .session) :
    let t := depart reason fault dest s
    t.stc = { s.stc with op := dest, listenWindow := none, contactor := false } ∧ t.ins = s.ins.leaveSession ∧
      t.ses = (closeSession reason fault s).ses ∧ t.mtr = (closeSession reason fault s).mtr ∧
      t.shu.limit = 0 ∧ t.shu.intent = 0 ∧ t.shu.setpoint = 0 ∧ t.shu.enable = false ∧ t.dmu.chargerAllow = 0 ∧
      t.dmu.heaterAllow = 0 ∧ t.vlk = { (closeSession reason fault s).vlk with
        marks := (closeSession reason fault s).vlk.marks.post .stateChanged } ∧
      t.dli.queue.epoch = none ∧ (∀ k, k ≠ .announce → k ≠ .epoch → t.dli.queue.get k = s.dli.queue.get k) := by
  have h4 : (departing reason fault dest s).stc.op ≠ .session := hd
  have e1 : (departing reason fault dest s).stc = { s.stc with op := dest, listenWindow := none } := by
    simp [departing, setOp]
  have e2 : (departing reason fault dest s).ins = s.ins.leaveSession := by simp [departing]
  have e3 : (departing reason fault dest s).ses = (closeSession reason fault s).ses := by simp [departing]
  have e4 : (departing reason fault dest s).mtr = (closeSession reason fault s).mtr := by simp [departing]
  have e5 : (departing reason fault dest s).vlk = { (closeSession reason fault s).vlk with
      marks := (closeSession reason fault s).vlk.marks.post .stateChanged } := by simp [departing, setOp, post]
  have e6 : (departing reason fault dest s).dli = s.dli.withdrawEpoch s.now := by
    show (closeSession reason fault s).dli.withdrawEpoch (closeSession reason fault s).now = _
    simp
  rw [depart_eq]
  generalize departing reason fault dest s = d at *
  obtain ⟨g1, g2, _, _⟩ := regrant_quiet h4
  obtain ⟨p1, p2, p3, p4, p5⟩ := resplit_quiet (s := regrant d) g1
  have hq : ∀ k, k ≠ .announce → (resplit (regrant d)).dli.queue.get k = (s.dli.withdrawEpoch s.now).queue.get k := by
    intro k hk
    rw [show (resplit (regrant d)).dli = (regrant d).dli from rfl, regrant_dli]
    split
    · rw [queueFrame_others _ _ _ _ _ hk, e6]
    · rw [e6]
  refine ⟨by simp [e1], by simp [e2], by simp [e3], by simp [e4], p1, p2.trans g2, rfl, rfl, p4, p5, by simp [e5], ?_, ?_⟩
  · have := hq .epoch (by decide)
    rw [withdrawEpoch_queue, TxQueue.get_set] at this
    simpa [TxQueue.get] using this
  · intro k hk he
    have := hq k hk
    rw [withdrawEpoch_queue, TxQueue.get_set, if_neg he] at this
    exact this

/-- The new state taken from LISTENING or LINKED. -/
theorem moveTo_spec (op : OpState) (s : State) (h : op ≠ .session) :
    (moveTo op s).stc = { s.stc with op := op, listenWindow := none } ∧ (moveTo op s).shu.limit = 0 ∧
      (moveTo op s).shu.intent = 0 ∧ (moveTo op s).shu.setpoint = 0 ∧ (moveTo op s).dmu.chargerAllow = 0 ∧
      (moveTo op s).dmu.heaterAllow = 0 ∧
      (moveTo op s).vlk = { s.vlk with marks := s.vlk.marks.post .stateChanged } ∧
      (∀ k, k ≠ .announce → (moveTo op s).dli.queue.get k = s.dli.queue.get k) := by
  have h4 : (setOp op s).stc.op ≠ .session := h
  obtain ⟨g1, g2, _, _⟩ := regrant_quiet h4
  obtain ⟨p1, p2, p3, p4, p5⟩ := resplit_quiet (s := regrant (setOp op s)) g1
  refine ⟨?_, p1, p2.trans g2, p3, p4, p5, ?_, ?_⟩
  · simp [moveTo, setOp]
  · simp [moveTo, setOp, post]
  · intro k hk
    show (regrant (setOp op s)).dli.queue.get k = _
    rw [regrant_dli]
    split
    · rw [queueFrame_others _ _ _ _ _ hk]; rfl
    · rfl

theorem cutOffOthers_queue (now : Nat) (d : Dli) : (d.cutOffOthers now).queue = d.queue := by
  unfold Dli.cutOffOthers Dli.cutOff
  repeat' split
  all_goals rfl

theorem stopFramer_queue (now : Nat) (d : Dli) : (d.stopFramer now).queue = d.queue := by
  unfold Dli.stopFramer
  split <;> rfl

/-- The entry effects of HALTED (R163). -/
theorem enterHalted_spec (s : State) (h : s.stc.op ≠ .start) :
    (enterHalted s).epi = s.epi.leaveBus ∧ (enterHalted s).dli.announce = none ∧
      (enterHalted s).dli.queue.leave = some { content := .none, failed := 0 } ∧
      (∀ k, k ≠ .leave → (enterHalted s).dli.queue.get k = s.dli.queue.get k) ∧
      (enterHalted s).ptb = { s.ptb with
        entries := s.ptb.entries.map (fun e => { e with claimant := isMember e.code s.epi.leaveBus.claimants }) } := by
  have hq : (enterHalted s).dli.queue = (s.dli.queueFrame s.stc.op .leave .none).queue := by
    show ((((s.dli.queueFrame s.stc.op .leave .none).cutOffOthers s.now).stopFramer s.now)).queue = _
    rw [stopFramer_queue, cutOffOthers_queue]
  refine ⟨rfl, rfl, ?_, ?_, rfl⟩
  · rw [hq]; exact queueFrame_queued _ .leave _ _ h (by decide)
  · intro k hk; rw [hq, queueFrame_others _ _ _ _ _ hk]

/-- A stop-class fault in LISTENING, LINKED or SESSION (R163): all that every such halt does. -/
theorem halt_spec (c : FaultCode) (s : State) (h : s.stc.op.takesFrames = true) :
    let t := halt c s
    t.stc.op = .halted ∧ t.shu.limit = 0 ∧ t.shu.intent = 0 ∧ t.epi = s.epi.leaveBus ∧ t.dli.announce = none ∧
      t.dli.queue.leave = some { content := .none, failed := 0 } ∧
      (∀ k, k ≠ .announce → k ≠ .epoch → k ≠ .leave → t.dli.queue.get k = s.dli.queue.get k) ∧
      t.ptb = { s.ptb with
        entries := s.ptb.entries.map (fun e => { e with claimant := isMember e.code s.epi.leaveBus.claimants }) } ∧
      t.vlk.marks.fault = s.vlk.marks.fault ∧ t.vlk.marks.stateChanged = true ∧
      (s.stc.op = .session → t.ins = s.ins.leaveSession ∧ t.stc.contactor = false) ∧
      (s.stc.op ≠ .session → t.ins = s.ins ∧ t.stc.contactor = s.stc.contactor) := by
  intro t
  have hab : (abandonSlot s).stc = s.stc ∧ (abandonSlot s).epi = s.epi ∧ (abandonSlot s).dli = s.dli ∧
      (abandonSlot s).ptb = s.ptb ∧ (abandonSlot s).vlk.marks = s.vlk.marks ∧ (abandonSlot s).ins = s.ins := by
    refine ⟨by simp, by simp, by simp, by simp, ?_, by simp⟩
    unfold abandonSlot endCalibrate
    split
    · rfl
    · simp only []; split <;> rfl
  cases ho : s.stc.op with
  | start => simp [OpState.takesFrames, ho] at h
  | ready => simp [OpState.takesFrames, ho] at h
  | halted => simp [OpState.takesFrames, ho] at h
  | listening =>
    have ht : t = enterHalted (moveTo .halted s) := by simp only [t, halt, ho]
    obtain ⟨m1, m2, m3, _, _, _, m4, m5⟩ := moveTo_spec .halted s (by decide)
    obtain ⟨e1, e2, e3, e4, e5⟩ := enterHalted_spec (moveTo .halted s) (by rw [m1]; simp)
    rw [ht]
    refine ⟨by simp [m1], by simp [m2], by simp [m3], by simpa using e1, e2, e3, ?_, by simpa using e5, ?_, ?_, by simp, ?_⟩
    · intro k h1 _ h3; rw [e4 k h3, m5 k h1]
    · simp [m4, Marks.post]
    · simp [m4, Marks.post]
    · intro _; simp [m1]
  | linked =>
    have ht : t = enterHalted (moveTo .halted (abandonSlot s)) := by simp only [t, halt, ho]
    obtain ⟨m1, m2, m3, _, _, _, m4, m5⟩ := moveTo_spec .halted (abandonSlot s) (by decide)
    obtain ⟨e1, e2, e3, e4, e5⟩ := enterHalted_spec (moveTo .halted (abandonSlot s)) (by rw [m1]; simp)
    rw [ht]
    refine ⟨by simp [m1], by simp [m2], by simp [m3], by simpa [hab] using e1, e2, e3, ?_, by simpa [hab] using e5, ?_, ?_, by simp, ?_⟩
    · intro k h1 _ h3; rw [e4 k h3, m5 k h1, hab.2.2.1]
    · simp [m4, Marks.post, hab]
    · simp [m4, Marks.post]
    · intro _; simp [m1]
  | session =>
    have ht : t = enterHalted (depart .fault (some c) .halted s) := by simp only [t, halt, ho]
    obtain ⟨m1, m2, m3, m4, m5, m6, _, _, _, _, m7, m8, m9⟩ := depart_spec .fault (some c) .halted s (by decide)
    obtain ⟨e1, e2, e3, e4, e5⟩ := enterHalted_spec (depart .fault (some c) .halted s) (by rw [m1]; simp)
    rw [ht]
    refine ⟨by simp [m1], by simp [m5], by simp [m6], by simpa using e1, e2, e3, ?_, by simpa using e5, ?_, ?_, ?_, by simp⟩
    · intro k h1 h2 h3; rw [e4 k h3, m9 k h1 h2]
    · simp [m7, Marks.post, closeSession_fault]
    · simp [m7, Marks.post]
    · intro _; simp [m1, m2]

/-! ## A frame that is no ANNOUNCE -/

/-- A settled table's record is the grant of the figures that stand (R30). -/
theorem settleTable_record (s : State) : (settleTable s).shu.record = computeGrant s.grantInputs := by
  rw [settleTable_shu]
  simp only []
  split <;> simp

/-- What the refresh of an entry by an EPOCH, FINDING or CLAIM does before the Insulation Unit takes the frame (R6, R16): the
entries, and for an entry that was STALE F and the mismatch onset. -/
def aliveBefore (code : Nat) (s : State) : State :=
  let s1 := setEntries (updateEntry code PeerEntry.refreshed s.ptb.entries) s
  if wasStale code s.ptb.entries then refreshFeeder s1 else s1

theorem aliveBefore_kept (code : Nat) (s : State) :
    let x := aliveBefore code s
    x.ptb.entries = updateEntry code PeerEntry.refreshed s.ptb.entries ∧ x.ptb.unlisted = s.ptb.unlisted ∧
      x.now = s.now ∧ x.cfg = s.cfg ∧ x.shu = s.shu ∧ x.dmu = s.dmu ∧ x.htr = s.htr ∧ x.ins = s.ins ∧ x.epi = s.epi ∧
      x.trc = s.trc ∧ x.mtr = s.mtr ∧ x.ses = s.ses ∧ x.stc = s.stc ∧ x.trm = s.trm ∧ x.dli = s.dli ∧
      x.pending = s.pending ∧ (wasStale code s.ptb.entries = true →
        x.ptb.feeder = effectiveFeeder s.cfg.feederLimit x.ptb.entries) ∧
      (wasStale code s.ptb.entries = false → x.flt = s.flt ∧ x.vlk = s.vlk ∧ x.ptb.feeder = s.ptb.feeder) := by
  intro x
  simp only [x, aliveBefore]
  cases hw : wasStale code s.ptb.entries
  · simp [setEntries]
  · simp [refreshFeeder_ptb, Ptb.refreshFeeder, setEntries]

/-- A frame that is no ANNOUNCE, taken by the Insulation Unit as `take` does: what is settled after it leaves all but the grant,
the split and the zones' switches as `take` left it. -/
theorem handleAlive_spec (code : Nat) (take : State → State) (before s : State) :
    let y := take (aliveBefore code s)
    let r := finish false before (handleAlive code take s)
    r.now = y.now ∧ r.cfg = y.cfg ∧ r.ptb = y.ptb ∧ r.ins = y.ins ∧ r.epi = y.epi ∧ r.trc = y.trc ∧ r.mtr = y.mtr ∧
      r.ses = y.ses ∧ r.stc = y.stc ∧ r.flt = y.flt ∧ r.vlk = y.vlk ∧ r.trm = y.trm ∧ r.pending = y.pending ∧
      ZonesKept y.cfg.doseLimit y.htr.zones r.htr.zones ∧ (∀ k, k ≠ .announce → r.dli.queue.get k = y.dli.queue.get k) ∧
      (wasStale code s.ptb.entries = false → r.shu = y.shu ∧ r.dmu = y.dmu ∧ r.dli = y.dli) ∧
      (wasStale code s.ptb.entries = true → r.shu.record = computeGrant r.grantInputs ∧
        (y.stc.op ≠ .session → r.shu.limit = 0 ∧ r.shu.intent = 0)) := by
  intro y r
  obtain ⟨f1, _, _⟩ := finish_kept false before (handleAlive code take s)
  cases hw : wasStale code s.ptb.entries
  · have e : handleAlive code take s = y := by simp [handleAlive, y, aliveBefore, hw]
    have er : r = finish false before y := by simp only [r, e]
    rw [e] at f1
    rw [er]
    exact ⟨rfl, rfl, rfl, rfl, rfl, rfl, rfl, rfl, rfl, rfl, rfl, rfl, rfl, f1, fun _ _ => rfl, fun _ => ⟨rfl, rfl, rfl⟩, by simp⟩
  · have e : handleAlive code take s = settleTable y := by simp [handleAlive, y, aliveBefore, hw]
    have er : r = finish false before (settleTable y) := by simp only [r, e]
    rw [e] at f1
    rw [er]
    refine ⟨by simp, by simp, by simp, by simp, by simp, by simp, by simp, by simp, by simp, by simp, by simp, by simp,
      by simp, (settleTable_htr y).1.trans (by simpa using f1), ?_, by simp, fun _ => ⟨?_, ?_⟩⟩
    · intro k hk
      rw [finish_dli, settleTable_dli]
      simp only []
      split
      · exact queueFrame_others _ _ _ _ _ hk
      · rfl
    · rw [finish_grantInputs, settleTable_grantInputs, finish_shu, settleTable_record]
    · intro ho
      obtain ⟨g1, g2, g3, _⟩ := regrant_quiet ho
      have hl : (holdTest (regrant y)).shu.limit = 0 ∧ (holdTest (regrant y)).shu.intent = 0 := by
        rw [holdTest_shu]
        split
        · simp [Shu.complete, Shu.steady, g2]
        · exact ⟨g1, g2⟩
      obtain ⟨p1, p2, _⟩ := resplit_quiet hl.1
      exact ⟨p1, p2.trans hl.2⟩

/-! ## Settings -/

/-- A field settled stands within its range, and is marked clamped exactly where it did not (R178). -/
theorem settleNat_spec (useDefault : Bool) (dflt lo hi raw : Nat) (h : lo ≤ hi) :
    let v := if useDefault then dflt else raw
    let r := settleNat useDefault dflt lo hi raw
    r.1 = max lo (min v hi) ∧ lo ≤ r.1 ∧ r.1 ≤ hi ∧ (r.2 = true ↔ v < lo ∨ hi < v) := by
  simp only [settleNat, decide_eq_true_eq, iff_self, and_true, true_and]
  omega

/-- The same of a signed field (R178). -/
theorem settleInt_spec (useDefault : Bool) (dflt lo hi raw : Int) (h : lo ≤ hi) :
    let v := if useDefault then dflt else raw
    let r := settleInt useDefault dflt lo hi raw
    r.1 = max lo (min v hi) ∧ lo ≤ r.1 ∧ r.1 ≤ hi ∧ (r.2 = true ↔ v < lo ∨ hi < v) := by
  simp only [settleInt, decide_eq_true_eq, iff_self, and_true, true_and]
  omega

/-- A clamp mask of fields in ascending order shows the bits of the fields clamped and no other (R172). -/
theorem maskOf_testBit (bits : List (Nat × Bool)) (h : (bits.map Prod.fst).Pairwise (fun a b => a < b)) (n : Nat) :
    (maskOf bits).testBit n = bits.any (fun x => x.1 == n && x.2) ∧
      ∀ k, (∀ x ∈ bits, k ≤ x.1) → 2 ^ k ∣ maskOf bits := by
  induction bits generalizing n with
  | nil => simp [maskOf]
  | cons x xs ih =>
    obtain ⟨hx, hxs⟩ := List.pairwise_cons.1 h
    have ih' := ih hxs
    have hd : 2 ^ (x.1 + 1) ∣ maskOf xs := (ih' 0).2 _ fun y hy => hx _ (List.mem_map_of_mem hy)
    obtain ⟨q, hq⟩ := hd
    have e : maskOf (x :: xs) = 2 ^ (x.1 + 1) * q + (if x.2 then 2 ^ x.1 else 0) := by
      rw [← hq]; simp [maskOf, Nat.add_comm]
    have hlt : (if x.2 then 2 ^ x.1 else 0) < 2 ^ (x.1 + 1) := by
      split <;> simp [Nat.pow_succ]
    constructor
    · rw [e, Nat.testBit_two_pow_mul_add _ hlt]
      have hxs' := (ih' n).1
      rw [hq, Nat.testBit_two_pow_mul] at hxs'
      simp only [List.any_cons]
      split
      · rename_i hn
        have : xs.any (fun y => y.1 == n && y.2) = false := by
          rw [← hxs']; simp; omega
        rw [this, Bool.or_false]
        cases x.2
        · simp
        · by_cases hxn : x.1 = n
          · simp [hxn]
          · simp [hxn]
      · rename_i hn
        have : (x.1 == n) = false := by simp; omega
        rw [this, ← hxs']
        simp; omega
    · intro k hk
      rw [e]
      have h1 := hk x (by simp)
      apply Nat.dvd_add
      · exact Dvd.dvd.mul_right (Nat.pow_dvd_pow 2 (by omega)) _
      · split
        · exact Nat.pow_dvd_pow 2 h1
        · simp

/-! ## What the zones draw -/

/-- Where no zone heats, nothing is drawn. -/
theorem ratedSum_off {q : Quad Zone} (ratings : Quad Nat) (h : ∀ z, (q.get z).heats = false) :
    ratedSum Zone.heats q ratings = 0 := by simp [ratedSum, allZones, h]

theorem switchOff_off (limit : Nat) (x : Zone) : (x.switchOff limit).heats = false := by
  unfold Zone.switchOff
  split
  · simp [Zone.heats]
  · simp_all

/-- The switch-off for allowance, over an order that names every HEATING zone, ends with the ratings within the allowance (R76). -/
theorem shedZones_within (limit allow : Nat) (ratings : Quad Nat) (zs : List ZoneId) (q : Quad Zone)
    (h : ∀ z, (q.get z).heats = true → z ∈ zs) : ratedSum Zone.heats (shedZones limit allow ratings zs q) ratings ≤ allow := by
  induction zs generalizing q with
  | nil =>
    have : ∀ z, (q.get z).heats = false := fun z => by simpa using h z
    simp [shedZones, ratedSum_off ratings this]
  | cons w zs ih =>
    unfold shedZones
    split
    · assumption
    · refine ih _ fun z hz => ?_
      rw [Quad.get_set] at hz
      split at hz
      · simp [switchOff_off] at hz
      · rcases List.mem_cons.1 (h z hz) with rfl | h1
        · contradiction
        · exact h1

/-- The switch-on test keeps the ratings of the HEATING zones within the allowance (R74). -/
theorem switchOn_within {now : Nat} {b : Bool} {allow : Nat} {cfg : Settings} {h : Htr}
    (hw : ratedSum Zone.heats h.zones cfg.ratings ≤ allow) :
    ratedSum Zone.heats (h.switchOn now b allow cfg).zones cfg.ratings ≤ allow := by
  unfold Htr.switchOn
  split
  · exact hw
  · rename_i z hz
    have hs := candidate_waiting hz
    have hf : ratedSum Zone.heats h.zones cfg.ratings + cfg.ratings.get z ≤ allow := by
      unfold Htr.candidate at hz
      split at hz
      · simp at hz
      · split at hz
        · rename_i hc
          simp only [Option.some.injEq] at hz
          subst hz
          simp only [Bool.and_eq_true, decide_eq_true_eq] at hc
          exact hc.2
        · simp at hz
    have off : (h.zones.get z).heats = false := by simp [Zone.heats, hs]
    have key : ∀ w, ((h.zones.set z { h.zones.get z with state := .heating }).get w).heats =
        if w = z then true else (h.zones.get w).heats := by
      intro w
      rw [Quad.get_set]
      split <;> rfl
    refine Nat.le_trans (Nat.le_of_eq ?_) hf
    simp only [ratedSum, allZones, List.map_cons, List.map_nil, List.sum_cons, List.sum_nil, key]
    cases z <;> simp [off] <;> omega

/-- The grant is computed from the code, share fields and freshness of the entries alone, which time does not change (R20). -/
theorem computeGrant_elapse (t : Nat) (s : State) :
    computeGrant (elapse t s).grantInputs = computeGrant s.grantInputs := by
  unfold elapse
  split
  · rfl
  · simp only [passTime, State.grantInputs, computeGrant, GrantInputs.cause, frozenSum, reservedSum, participants,
      List.filter_map, List.map_map]
    rfl

/-- A split made again on what it left gives the same (R63, R64). -/
theorem split_split (tp : Int) (l : Nat) (d : Dmu) : (d.split tp l).split tp l = d.split tp l := by
  cases h : splitOrderOf tp d.tMin <;> simp [Dmu.split, h]


/-- A grant and a split, passed on whole (R30, R31, R37, R65). -/
theorem resplit_regrant_settled (s : State) : DemandSettled True s (resplit (regrant s)) := by
  obtain ⟨hd, hs, _⟩ := resplit_spec (regrant s)
  have hg : (resplit (regrant s)).grantInputs = s.grantInputs := by rw [resplit_grantInputs, regrant_grantInputs]
  refine ⟨?_, ?_, ?_⟩
  · rw [hs, hg, if_pos trivial, ← applyGrant_eq, regrant_shu]
  · have hl : (resplit (regrant s)).shu.limit = (regrant s).shu.limit := by rw [hs]; rfl
    have hc : (regrant s).cfg = s.cfg := by simp
    rw [hl, hd, hc, split_split]
  · rw [hg]
    simp only [true_and, resplit_dli, regrant_dli, resplit_stc, regrant_stc, grantMoves_iff]

/-- A split alone, passed on (R64, R65). -/
theorem resplit_settled (s : State) : DemandSettled False s (resplit s) := by
  obtain ⟨hd, hs, _⟩ := resplit_spec s
  refine ⟨?_, ?_, ?_⟩
  · rw [hs]; simp
  · have hl : (resplit s).shu.limit = s.shu.limit := by rw [hs]; rfl
    rw [hl, hd, split_split]
  · simp

/-- The demand figures recomputed into `s`, the rest as in `b`, and a change of own demand or weight passed on (R54, R65, R72). -/
theorem settleDemand_settled {b s : State} (hs : s.shu = b.shu) (hc : s.cfg = b.cfg) (hd : s.dli = b.dli) :
    DemandSettled (FiguresMoved b s) b (settleDemand b.dmu s) := by
  unfold settleDemand
  by_cases h : s.dmu.ownDemand = b.dmu.ownDemand ∧ s.dmu.weight = b.dmu.weight
  · rw [if_pos h]
    have hf : ¬ FiguresMoved b s := by simp [FiguresMoved, h]
    simpa [DemandSettled, hf, hs, hc, hd] using resplit_settled s
  · rw [if_neg h]
    have hf : FiguresMoved b s := by
      by_cases h1 : s.dmu.ownDemand = b.dmu.ownDemand
      · exact Or.inr fun h2 => h ⟨h1, h2⟩
      · exact Or.inl h1
    simpa [DemandSettled, hf, hs, hc, hd] using resplit_regrant_settled s

/-- Every command is an event at its moment: some work on the state it meets, and then the event's tail (R75, R82). -/
theorem exec_finishes (c : Instr) (s : State) :
    ∃ force after, exec c s = .next (finish force (elapse c.moment s) after) := by
  cases c <;> exact ⟨_, _, rfl⟩

/-! ## The line's marks and the conversion cycle -/

/-- The bits of a frame with the stuff bits a sender inserts end where they end, whatever follows on the line (R144). -/
theorem afterBits_stuff (bits rest : List Bool) (run : Nat) :
    afterBits bits.length run (stuff run bits ++ rest) = some rest := by
  induction bits generalizing run with
  | nil => simp [stuff, afterBits]
  | cons b bs ih =>
    unfold stuff
    split
    · next h => subst h; simpa [afterBits] using ih (if b then 1 else 0)
    · next h => simpa [afterBits, h] using ih (if b then run + 1 else 0)

/-- A whole frame of a kind, sound or not, is read to its end (R154). -/
theorem beyondFrame_whole {k : FrameKind} {all rest : List Bool} (hk : lineKind (stuff 0 all ++ rest) = some k)
    (hl : all.length = 8 * k.length) : beyondFrame (false :: (stuff 0 all ++ rest)) = some rest := by
  simp [beyondFrame, hk, ← hl, afterBits_stuff]

/-- After a whole frame has been given up, no start bit within the 12 bit times after its end is taken (R154). -/
theorem framerAfter_whole {now : Nat} {bits rest : List Bool} (h : beyondFrame bits = some rest) :
    now + 192 - 16 * rest.length ≤ framerAfter now bits := by
  simp only [framerAfter, h, Config.gapMicros, Config.bitMicros]
  exact Nat.le_max_right _ _

@[simp] theorem idleFrom_queue (m k : Nat) (d : Dli) : (d.idleFrom m k).queue = d.queue := rfl
@[simp] theorem idleFrom_attempt (m k : Nat) (d : Dli) : (d.idleFrom m k).attempt = d.attempt := rfl
@[simp] theorem idleFrom_gapFrom (m k : Nat) (d : Dli) : (d.idleFrom m k).gapFrom = m := rfl
@[simp] theorem idleFrom_framerFrom (m k : Nat) (d : Dli) : (d.idleFrom m k).framerFrom = k := rfl

/-- A cut-off of the attempt in progress moves the framer's mark past the attempt's own start, so a frame begun with it is not
taken (R147, R154; log 48). -/
theorem started_before_cutOff_framerFrom {now : Nat} {a : Attempt} (h : a.started ≤ now) (d : Dli) :
    a.started < (d.cutOff now a).framerFrom := by
  simp only [Dli.cutOff, idleFrom_framerFrom, Attempt.recessiveSince, Config.gapMicros]
  omega

@[simp] theorem noteConversion_zones (m : Nat) (z : ZoneId) (h : Htr) : (h.noteConversion m z).zones = h.zones := rfl
@[simp] theorem noteConversion_contactor (m : Nat) (z : ZoneId) (h : Htr) : (h.noteConversion m z).contactor = h.contactor := rfl
@[simp] theorem noteConversion_idle (m : Nat) (z : ZoneId) (h : Htr) : (h.noteConversion m z).idle = h.idle := rfl
@[simp] theorem noteConversion_cycleStart (m : Nat) (z : ZoneId) (h : Htr) : (h.noteConversion m z).cycleStart = h.cycleStart := rfl

/-- A zone may convert while the cycle runs and its count is at most the whole cycles run before this one (R70, log 25). -/
theorem converts_iff (now : Nat) (z : ZoneId) (h : Htr) :
    h.converts now z = true ↔ ∃ c, h.cycleStart = some c ∧ h.converted.get z ≤ (now - c) / 1000000 := by
  unfold Htr.converts Htr.cycleNumber Config.cycleMicros
  cases h.cycleStart <;> simp

/-- A zone that has converted waits for the next cycle (R70). -/
theorem noteConversion_done (now : Nat) (z : ZoneId) (h : Htr) : (h.noteConversion now z).converts now z = false := by
  unfold Htr.converts Htr.cycleNumber Htr.noteConversion
  cases hc : h.cycleStart <;> simp [Quad.get_set, Htr.cycleNumber, hc]

/-- A station that is sending takes nothing from the line (R150). -/
theorem unlessSending_sending {f : State → State} {s : State} {a : Attempt} (h : s.dli.attempt = some a) :
    unlessSending f s = s := by simp [unlessSending, h]

theorem unlessSending_free {f : State → State} {s : State} (h : s.dli.attempt = none) : unlessSending f s = f s := by
  simp [unlessSending, h]
/-! ## The events of the block's own -/

/-- A timer's moment has come where its expiry is due. -/
theorem due_iff_passed (now : Nat) (m : Option Nat) : due now m = true ↔ Passed now m := by
  cases m <;> simp [due, Passed]

@[simp] theorem whenDue_eq_some {b : Bool} {c d : Instr} : whenDue b c = some d ↔ b = true ∧ c = d := by
  cases b <;> simp [whenDue]

/-- The command of an entry's age is due, and there is none only where no entry stands at a threshold (R9, R10). -/
theorem ageCommand_due {s : State} {c : Instr} (h : ageCommand s = some c) : OwnEventDue s c := by
  unfold ageCommand at h
  split at h
  · rename_i e he
    cases h
    exact ⟨rfl, e, List.mem_of_find?_eq_some he, rfl, by simpa [removalDue] using List.find?_some he⟩
  · split at h
    · rename_i e he
      cases h
      have := List.find?_some he
      simp only [staleDue, decide_eq_true_eq] at this
      exact ⟨rfl, e, List.mem_of_find?_eq_some he, rfl, this⟩
    · cases h

theorem ageCommand_none {s : State} (h : ageCommand s = none) (e : PeerEntry) (he : e ∈ s.ptb.entries) :
    ¬ 6 * s.cfg.ta * 1000 ≤ e.silence ∧ ¬ (e.freshness = .fresh ∧ 3 * s.cfg.ta * 1000 ≤ e.silence) := by
  unfold ageCommand at h
  split at h
  · cases h
  · rename_i h1
    split at h
    · cases h
    · rename_i h2
      exact ⟨by simpa [removalDue] using List.find?_eq_none.mp h1 e he,
        by simpa only [staleDue, decide_eq_true_eq] using List.find?_eq_none.mp h2 e he⟩

/-- The command of a dose is due, and there is none only where no HEATING zone stands at the limit (R78). -/
theorem doseCommand_due {s : State} {c : Instr} (h : doseCommand s = some c) : OwnEventDue s c := by
  unfold doseCommand at h
  split at h
  · rename_i z hz
    cases h
    exact ⟨rfl, by simpa [Zone.heats] using List.find?_some hz⟩
  · cases h

theorem doseCommand_none {s : State} (h : doseCommand s = none) (z : ZoneId) :
    ¬ ((s.htr.zones.get z).state = .heating ∧ s.cfg.doseLimit * 1000000 ≤ (s.htr.zones.get z).heatTime) := by
  unfold doseCommand at h
  split at h
  · cases h
  · rename_i h1
    have := List.find?_eq_none.mp h1 z (by cases z <;> simp [allZones])
    simpa [Zone.heats] using this

end Sys2Proof.Machine
end

