-- ==== Sys2Proof/Laws/PerInstr.lean ====
section
/-! SUPPORT. The family Moment, one lemma per command: the moment of a command is an operand of its own, which its well-formedness does not look at. -/

namespace Sys2Proof.Laws

/-- A command put at a moment has that moment, the command at its own moment is itself, only the last moment counts, and
well-formedness does not depend on it. -/
def Moment.Statement (i : Instr) : Prop :=
  (∀ m, (i.atMoment m).moment = m) ∧ i.atMoment i.moment = i ∧ (∀ m n, (i.atMoment m).atMoment n = i.atMoment n) ∧
    ∀ m, wellFormed (i.atMoment m) = wellFormed i

theorem Moment.transaction (t : Nat) (clocked : Nat) : Moment.Statement (.transaction t clocked) :=
  ⟨fun _ => rfl, rfl, fun _ _ => rfl, fun _ => rfl⟩
theorem Moment.nop (t : Nat) : Moment.Statement (.nop t) :=
  ⟨fun _ => rfl, rfl, fun _ _ => rfl, fun _ => rfl⟩
theorem Moment.unknownCode (t : Nat) (bytes : List Byte) : Moment.Statement (.unknownCode t bytes) :=
  ⟨fun _ => rfl, rfl, fun _ _ => rfl, fun _ => rfl⟩
theorem Moment.readStatus (t : Nat) (tag : Byte) (params : List Byte) : Moment.Statement (.readStatus t tag params) :=
  ⟨fun _ => rfl, rfl, fun _ _ => rfl, fun _ => rfl⟩
theorem Moment.readTrim (t : Nat) (tag : Byte) (params : List Byte) : Moment.Statement (.readTrim t tag params) :=
  ⟨fun _ => rfl, rfl, fun _ _ => rfl, fun _ => rfl⟩
theorem Moment.softReset (t : Nat) (tag : Byte) (params : List Byte) : Moment.Statement (.softReset t tag params) :=
  ⟨fun _ => rfl, rfl, fun _ _ => rfl, fun _ => rfl⟩
theorem Moment.configure (t : Nat) (tag : Byte) (params : List Byte) : Moment.Statement (.configure t tag params) :=
  ⟨fun _ => rfl, rfl, fun _ _ => rfl, fun _ => rfl⟩
theorem Moment.readFaults (t : Nat) (tag : Byte) (params : List Byte) : Moment.Statement (.readFaults t tag params) :=
  ⟨fun _ => rfl, rfl, fun _ _ => rfl, fun _ => rfl⟩
theorem Moment.readSession (t : Nat) (tag : Byte) (params : List Byte) : Moment.Statement (.readSession t tag params) :=
  ⟨fun _ => rfl, rfl, fun _ _ => rfl, fun _ => rfl⟩
theorem Moment.ackSession (t : Nat) (tag : Byte) (params : List Byte) : Moment.Statement (.ackSession t tag params) :=
  ⟨fun _ => rfl, rfl, fun _ _ => rfl, fun _ => rfl⟩
theorem Moment.readTrace (t : Nat) (tag : Byte) (params : List Byte) : Moment.Statement (.readTrace t tag params) :=
  ⟨fun _ => rfl, rfl, fun _ _ => rfl, fun _ => rfl⟩
theorem Moment.setTarget (t : Nat) (tag : Byte) (params : List Byte) : Moment.Statement (.setTarget t tag params) :=
  ⟨fun _ => rfl, rfl, fun _ _ => rfl, fun _ => rfl⟩
theorem Moment.readPeers (t : Nat) (tag : Byte) (params : List Byte) : Moment.Statement (.readPeers t tag params) :=
  ⟨fun _ => rfl, rfl, fun _ _ => rfl, fun _ => rfl⟩
theorem Moment.openSession (t : Nat) (tag : Byte) (params : List Byte) : Moment.Statement (.openSession t tag params) :=
  ⟨fun _ => rfl, rfl, fun _ _ => rfl, fun _ => rfl⟩
theorem Moment.closeSession (t : Nat) (tag : Byte) (params : List Byte) : Moment.Statement (.closeSession t tag params) :=
  ⟨fun _ => rfl, rfl, fun _ _ => rfl, fun _ => rfl⟩
theorem Moment.measureNow (t : Nat) (tag : Byte) (params : List Byte) : Moment.Statement (.measureNow t tag params) :=
  ⟨fun _ => rfl, rfl, fun _ _ => rfl, fun _ => rfl⟩
theorem Moment.calibrateMeter (t : Nat) (tag : Byte) (params : List Byte) : Moment.Statement (.calibrateMeter t tag params) :=
  ⟨fun _ => rfl, rfl, fun _ _ => rfl, fun _ => rfl⟩
theorem Moment.clearFault (t : Nat) (tag : Byte) (params : List Byte) : Moment.Statement (.clearFault t tag params) :=
  ⟨fun _ => rfl, rfl, fun _ _ => rfl, fun _ => rfl⟩
theorem Moment.powerOnReset (t : Nat) : Moment.Statement (.powerOnReset t) :=
  ⟨fun _ => rfl, rfl, fun _ _ => rfl, fun _ => rfl⟩
theorem Moment.announceArrival (t : Nat) (h : Header) (f : ShareFields) : Moment.Statement (.announceArrival t h f) :=
  ⟨fun _ => rfl, rfl, fun _ _ => rfl, fun _ => rfl⟩
theorem Moment.epochArrival (t : Nat) (h : Header) (epoch half : Nat) : Moment.Statement (.epochArrival t h epoch half) :=
  ⟨fun _ => rfl, rfl, fun _ _ => rfl, fun _ => rfl⟩
theorem Moment.findingArrival (t : Nat) (h : Header) (epoch result r v : Nat) : Moment.Statement (.findingArrival t h epoch result r v) :=
  ⟨fun _ => rfl, rfl, fun _ _ => rfl, fun _ => rfl⟩
theorem Moment.claimArrival (t : Nat) (h : Header) (epoch rb : Nat) : Moment.Statement (.claimArrival t h epoch rb) :=
  ⟨fun _ => rfl, rfl, fun _ _ => rfl, fun _ => rfl⟩
theorem Moment.leaveArrival (t : Nat) (h : Header) : Moment.Statement (.leaveArrival t h) :=
  ⟨fun _ => rfl, rfl, fun _ _ => rfl, fun _ => rfl⟩
theorem Moment.receiveDiscard (t : Nat) (begun : Nat) (bits : List Bool) : Moment.Statement (.receiveDiscard t begun bits) :=
  ⟨fun _ => rfl, rfl, fun _ _ => rfl, fun _ => rfl⟩
theorem Moment.attemptStart (t : Boundary) : Moment.Statement (.attemptStart t) :=
  ⟨fun _ => rfl, rfl, fun _ _ => rfl, fun _ => rfl⟩
theorem Moment.announceSent (t : Nat) : Moment.Statement (.announceSent t) :=
  ⟨fun _ => rfl, rfl, fun _ _ => rfl, fun _ => rfl⟩
theorem Moment.epochSent (t : Nat) : Moment.Statement (.epochSent t) :=
  ⟨fun _ => rfl, rfl, fun _ _ => rfl, fun _ => rfl⟩
theorem Moment.findingSent (t : Nat) : Moment.Statement (.findingSent t) :=
  ⟨fun _ => rfl, rfl, fun _ _ => rfl, fun _ => rfl⟩
theorem Moment.claimSent (t : Nat) : Moment.Statement (.claimSent t) :=
  ⟨fun _ => rfl, rfl, fun _ _ => rfl, fun _ => rfl⟩
theorem Moment.leaveSent (t : Nat) : Moment.Statement (.leaveSent t) :=
  ⟨fun _ => rfl, rfl, fun _ _ => rfl, fun _ => rfl⟩
theorem Moment.attemptFailed (t : Nat) : Moment.Statement (.attemptFailed t) :=
  ⟨fun _ => rfl, rfl, fun _ _ => rfl, fun _ => rfl⟩
theorem Moment.backoffEnd (t : Nat) : Moment.Statement (.backoffEnd t) :=
  ⟨fun _ => rfl, rfl, fun _ _ => rfl, fun _ => rfl⟩
theorem Moment.staleThreshold (t : Nat) (code : Nat) : Moment.Statement (.staleThreshold t code) :=
  ⟨fun _ => rfl, rfl, fun _ _ => rfl, fun _ => rfl⟩
theorem Moment.removalThreshold (t : Nat) (code : Nat) : Moment.Statement (.removalThreshold t code) :=
  ⟨fun _ => rfl, rfl, fun _ _ => rfl, fun _ => rfl⟩
theorem Moment.unlistedPeerTimerExpiry (t : Nat) : Moment.Statement (.unlistedPeerTimerExpiry t) :=
  ⟨fun _ => rfl, rfl, fun _ _ => rfl, fun _ => rfl⟩
theorem Moment.holdTimerExpiry (t : Nat) : Moment.Statement (.holdTimerExpiry t) :=
  ⟨fun _ => rfl, rfl, fun _ _ => rfl, fun _ => rfl⟩
theorem Moment.announceTimerExpiry (t : Nat) : Moment.Statement (.announceTimerExpiry t) :=
  ⟨fun _ => rfl, rfl, fun _ _ => rfl, fun _ => rfl⟩
theorem Moment.listenWindowExpiry (t : Nat) : Moment.Statement (.listenWindowExpiry t) :=
  ⟨fun _ => rfl, rfl, fun _ _ => rfl, fun _ => rfl⟩
theorem Moment.staggerTimerExpiry (t : Nat) : Moment.Statement (.staggerTimerExpiry t) :=
  ⟨fun _ => rfl, rfl, fun _ _ => rfl, fun _ => rfl⟩
theorem Moment.idleTimerExpiry (t : Nat) : Moment.Statement (.idleTimerExpiry t) :=
  ⟨fun _ => rfl, rfl, fun _ _ => rfl, fun _ => rfl⟩
theorem Moment.epochTimerExpiry (t : Nat) : Moment.Statement (.epochTimerExpiry t) :=
  ⟨fun _ => rfl, rfl, fun _ _ => rfl, fun _ => rfl⟩
theorem Moment.lossDeadline (t : Nat) : Moment.Statement (.lossDeadline t) :=
  ⟨fun _ => rfl, rfl, fun _ _ => rfl, fun _ => rfl⟩
theorem Moment.claimWindowExpiry (t : Nat) : Moment.Statement (.claimWindowExpiry t) :=
  ⟨fun _ => rfl, rfl, fun _ _ => rfl, fun _ => rfl⟩
theorem Moment.doseLimit (t : Nat) (zone : ZoneId) : Moment.Statement (.doseLimit t zone) :=
  ⟨fun _ => rfl, rfl, fun _ _ => rfl, fun _ => rfl⟩
theorem Moment.cycleSample (t : Nat) (u ib : Int) : Moment.Statement (.cycleSample t u ib) :=
  ⟨fun _ => rfl, rfl, fun _ _ => rfl, fun _ => rfl⟩
theorem Moment.halfEnd (t : Nat) (u ib : Int) : Moment.Statement (.halfEnd t u ib) :=
  ⟨fun _ => rfl, rfl, fun _ _ => rfl, fun _ => rfl⟩
theorem Moment.meterSample (t : Nat) (m : MeterInputs) : Moment.Statement (.meterSample t m) :=
  ⟨fun _ => rfl, rfl, fun _ _ => rfl, fun _ => rfl⟩
theorem Moment.intervalEnd (t : Nat) (m : MeterInputs) : Moment.Statement (.intervalEnd t m) :=
  ⟨fun _ => rfl, rfl, fun _ _ => rfl, fun _ => rfl⟩
theorem Moment.busPresent (t : Nat) (m : MeterInputs) : Moment.Statement (.busPresent t m) :=
  ⟨fun _ => rfl, rfl, fun _ _ => rfl, fun _ => rfl⟩
theorem Moment.busLost (t : Nat) (m : MeterInputs) : Moment.Statement (.busLost t m) :=
  ⟨fun _ => rfl, rfl, fun _ _ => rfl, fun _ => rfl⟩
theorem Moment.overdraw (t : Nat) (m : MeterInputs) : Moment.Statement (.overdraw t m) :=
  ⟨fun _ => rfl, rfl, fun _ _ => rfl, fun _ => rfl⟩
theorem Moment.temperatureConversion (t : Nat) (zone : ZoneId) (c : Conversion) : Moment.Statement (.temperatureConversion t zone c) :=
  ⟨fun _ => rfl, rfl, fun _ _ => rfl, fun _ => rfl⟩
theorem Moment.converterFaultInput (t : Nat) (asserted : Bool) : Moment.Statement (.converterFaultInput t asserted) :=
  ⟨fun _ => rfl, rfl, fun _ _ => rfl, fun _ => rfl⟩

end Sys2Proof.Laws
end

