-- ==== Sys2Proof/Tests/Slice0.lean ====
section
/-! SUPPORT. Tests of the model: the well-formedness checks, the spec's worked figures command by command, and for every statement with hypotheses a witness that meets them. Expected values come from the spec's worked examples and tables, or from a hand calculation by its rules. -/

namespace Sys2Proof.Tests
open Sys2Proof.Machine

/- One theorem is elaborated at a time: with many kernel checks at once each holds a thread and its stack. -/
set_option Elab.async false

/-! ## Helpers: small states of station 7 of the spec's examples -/

/-- The state a command leads to. -/
def after (c : Instr) (s : State) : State :=
  match exec c s with
  | .next t => t
  | .fault _ => s
  | .refused _ => s

/-- Station 7's settings in the spec's examples. -/
def settings7 : Settings :=
  { Settings.reset with stationCode := 7, depotCode := 9, feederLimit := 6000, margin := 50, ist := 1600, irating := 1200,
                        nominalV := 7000, ratings := ⟨75, 75, 60, 60⟩ }

/-- Share fields of a peer with a session open. -/
def shared (demand weight limit intent : Nat) : ShareFields :=
  { feederLimit := 6000, demand := demand, weight := weight, limit := limit, intent := intent,
    flags := { session := true, charging := true, heating := false } }

/-- A FRESH peer entry. -/
def peer (code : Nat) : PeerEntry :=
  { code := code, share := shared 0 1 0 0, freshness := .fresh, silence := 0, heard := true, claimant := false }

/-- A header of another station, its start bit at 1 s. -/
def header (code : Nat) : Header := { begun := 1000000, code := code, depot := 9 }

/-- Station 7 at 1 s in an operating state, its table holding 3, 12 and 20, a sample period ending now. -/
def station (op : OpState) : State :=
  { State.reset with
    now := 1000000
    cfg := settings7
    stc := { op := op, contactor := decide (op = .session), listenWindow := none, clockSet := true, clockMicros := 81462000000 }
    ptb := { entries := [peer 3, peer 12, peer 20], unlisted := none, feeder := 6000, mismatch := false }
    mtr := { Mtr.reset with latest := some ⟨7200, 0, 0, 0⟩, presence := .present, periodEnd := some 1000000
                            interval := if op = .session then Interval.first .normal else Interval.none }
    ses := if op = .session then Ses.reset.openSession 7 9 81400 0 else Ses.reset
    shu := { Shu.reset with record := { GrantRecord.reset with available := 5700, balance := 5700 }, enable := decide (op = .session) } }

/-- A transaction in hand in which enough bytes were clocked. -/
def asked (s : State) : State := { s with vlk := { s.vlk with txn := some { status := 0, clocked := 400 }, slot := none } }

/-- The configuration block of the first transactions of chapter 12: T_a 150, the margin by its default bit. -/
def block : List Byte :=
  beBytes 4 8 ++ [7, 9] ++ beBytes 2 6000 ++ beBytes 2 999 ++ beBytes 2 150 ++ beBytes 2 1600 ++ beBytes 2 1200
    ++ beBytes 2 7000 ++ beBytes 2 2000 ++ beBytes 2 10 ++ [0x14#8] ++ defaultDerate.flatMap (fun v => beBytes 2 v)
    ++ beBytes 2 0 ++ [1, 2, 3, 4] ++ beBytes 2 75 ++ beBytes 2 75 ++ beBytes 2 60 ++ beBytes 2 60 ++ beBytes 2 100
    ++ beBytes 2 20 ++ beBytes 2 450 ++ beBytes 2 3600 ++ beBytes 2 30 ++ beBytes 2 500 ++ beBytes 2 100 ++ beBytes 2 500
    ++ beBytes 2 850 ++ beBytes 4 1000

/-- The slot's record, by tag, result, clamp mask and data. -/
def slotOf (s : State) : Option (Byte × Result × Nat × List Byte) :=
  s.vlk.slot.map (fun r => (r.tag, r.result, r.clampMask, r.data))

/-! ## Syntax: no word spells a command; ill-formed commands are refused -/

theorem test_no_word_spells : decodeTableWord 8 1 = none := rfl

theorem test_wf_unknown_code : wellFormed (.unknownCode 0 [1, 0, 0]) = false ∧ wellFormed (.unknownCode 0 [16, 0, 0]) = true ∧
    wellFormed (.unknownCode 0 [4, 0, 91, 0]) = true := by decide

theorem test_wf_requests : requests.all (fun q => !wellFormed (q.2 0 0 (List.replicate 256 0))) = true ∧
    requests.all (fun q => wellFormed (q.2 0 0 (List.replicate 255 0))) = true := by decide +kernel

theorem test_wf_header : wellFormed (.leaveArrival 0 ⟨0, 256, 9⟩) = false ∧ wellFormed (.leaveArrival 0 ⟨0, 7, 256⟩) = false ∧
    wellFormed (.leaveArrival 0 ⟨0, 255, 255⟩) = true := by decide

theorem test_wf_announce : wellFormed (.announceArrival 0 (header 3) { shared 0 1 0 0 with feederLimit := 65536 }) = false ∧
    wellFormed (.announceArrival 0 (header 3) (shared 65536 1 0 0)) = false ∧
    wellFormed (.announceArrival 0 (header 3) (shared 0 256 0 0)) = false ∧
    wellFormed (.announceArrival 0 (header 3) (shared 0 1 65536 0)) = false ∧
    wellFormed (.announceArrival 0 (header 3) (shared 0 1 0 65536)) = false ∧
    wellFormed (.announceArrival 0 (header 256) (shared 0 1 0 0)) = false := by decide

theorem test_wf_epoch : wellFormed (.epochArrival 0 (header 3) 256 1800) = false ∧
    wellFormed (.epochArrival 0 (header 3) 1 65536) = false ∧ wellFormed (.epochArrival 0 (header 256) 1 1800) = false := by decide

theorem test_wf_finding : wellFormed (.findingArrival 0 (header 3) 256 0 50 7200) = false ∧
    wellFormed (.findingArrival 0 (header 3) 1 256 50 7200) = false ∧
    wellFormed (.findingArrival 0 (header 3) 1 0 65536 7200) = false ∧
    wellFormed (.findingArrival 0 (header 3) 1 0 50 65536) = false := by decide

theorem test_wf_claim : wellFormed (.claimArrival 0 (header 3) 256 55) = false ∧
    wellFormed (.claimArrival 0 (header 3) 1 65536) = false := by decide

theorem test_wf_rest : wellFormed (.receiveDiscard 0 0 []) = false ∧ wellFormed (.receiveDiscard 0 0 [true]) = false ∧
    wellFormed (.staleThreshold 0 0) = false ∧ wellFormed (.removalThreshold 0 64) = false ∧
    wellFormed (.temperatureConversion 0 .z1 (.reading 1001)) = false ∧
    wellFormed (.temperatureConversion 0 .z1 (.reading (-501))) = false := by decide

/-! ## Numbers and frames (R143 to R145, R153, R180) -/

/-- The check value of the nine ASCII digits 1 to 9 is 29B1h (R143). -/
theorem test_crc : crc16 [0x31, 0x32, 0x33, 0x34, 0x35, 0x36, 0x37, 0x38, 0x39] = 0x29B1#16 := by decide +kernel

/-- A LEAVE is 5 bytes and a CLAIM 8 on the line, without stuffing 40 and 64 bits after the start bit (chapter 10's example). -/
theorem test_frame_bits : (Frame.mk 12 9 .leave).bytes.length = 5 ∧ (Frame.mk 12 9 (.claim 57 55)).bytes.length = 8 ∧
    readFrame 9 (Frame.mk 12 9 (.claim 57 55)).lineBits = some (Frame.mk 12 9 (.claim 57 55)) := by decide +kernel

/-! ## The blocks' arithmetic, on the worked figures -/

/-- The five-station grant of chapter 2. -/
def fiveStations : GrantInputs :=
  { (station .session).grantInputs with
    demand := 450, weight := 6
    entries := [{ peer 3 with share := shared 2000 10 1700 1700 }, { peer 9 with share := shared 600 2 350 353 },
      { peer 12 with share := shared 1500 3 600 600 }, { peer 20 with share := shared 1800 15 1800 1800 },
      { peer 41 with share := shared 800 4 800 800, freshness := .stale }] }

theorem test_grant_five_stations : computeGrant fiveStations =
    { available := 5700, frozen := 800, pool := 4900, own := 450, balance := 447, grant := 447, zeroCause := .none } := by
  decide +kernel

/-- The weights of chapter 4 (8 h, 1 h, half an hour, past departure, no target). -/
theorem test_weights : weightOf 1200 60000 0 false 28800 0 7200 = 2 ∧ weightOf 1200 60000 0 false 3600 0 7200 = 10 ∧
    weightOf 1200 60000 0 false 1800 0 7200 = 15 ∧ weightOf 1200 60000 0 false 0 60 7200 = 15 ∧
    weightOf 1200 0 0 true 28800 0 7200 = 1 := by decide +kernel

/-- The estimates of chapter 6. -/
theorem test_estimates : busEstimate 40000 200000 60000 = 600 ∧ busEstimate 40000 200000 59980 = 599 ∧
    branchEstimate 60000 40 = 1500 ∧ branchEstimate 59980 40 = 1499 ∧ branchEstimate 60000 1 = 50000 ∧
    trackStep (some 600) (some 599) = .accepted 599 := by decide +kernel

/-! ## One step per command -/

/-- Chapter 12, first row: status byte 20h, then 00h bytes. -/
theorem test_transaction : (after (.transaction 0 3) State.reset).vlk.shiftedOut = [0x20#8, 0, 0] := by decide +kernel

theorem test_nop : (after (.nop 0) (asked (station .linked))).vlk.txn = none := by decide +kernel

theorem test_unknown_code : slotOf (after (.unknownCode 0 [0x10, 5, 0])
    { station .linked with vlk := { Vlk.reset with txn := some { status := 0, clocked := 3 } } }) =
      some (5, .range, 0, []) := by decide +kernel

/-- READ STATUS clears the marks, and ATTN is released (chapter 12, second row). -/
theorem test_read_status : let t := after (.readStatus 0 1 []) (asked State.reset);
    t.vlk.marks = Marks.none ∧ statusByte t = 0x40#8 := by decide +kernel

theorem test_read_trim : slotOf (after (.readTrim 0 1 []) (asked State.reset)) = some (1, .done, 0,
    [0, 0, 0x9C, 0x40, 0, 3, 0x0D, 0x40, 0, 0, 0x27, 0x10, 0, 0, 0x27, 0x10, 0, 0, 0x27, 0x10, 0, 0, 0, 1]) := by decide +kernel

/-- SOFT RESET in a session: the record closes with reason RESET, START, STATE_CHANGED and SESSION_CLOSED (chapter 11). -/
theorem test_soft_reset : let t := after (.softReset 0 1 []) (asked (station .session));
    t.stc.op = .start ∧ t.stc.contactor = false ∧ t.ses.log.map ClosedRecord.reason = [.reset] ∧ t.ses.nextNumber = 2 ∧
      t.vlk.marks = { Marks.none with stateChanged := true, sessionClosed := true } := by decide +kernel

/-- Chapter 12, third row: T_a 150 clamped to 200, clamp mask bit 4, READY; then status byte 61h. -/
theorem test_configure : let t := after (.configure 0 2 block) (asked (after (.readStatus 0 1 []) (asked State.reset)));
    t.cfg.ta = 200 ∧ t.cfg.margin = 50 ∧ t.stc.op = .ready ∧ slotOf t = some (2, .done, 16, []) ∧ statusByte t = 0x61#8 := by
  decide +kernel

theorem test_configure_refused : let t := after (.configure 0 2 (block.set 4 0)) (asked State.reset);
    t.stc.op = .start ∧ slotOf t = some (2, .range, 0, []) := by decide +kernel

/-- A part without faults: the first-out's four fields absent, the class of each selectable fault, no entry. -/
theorem test_read_faults : ((slotOf (after (.readFaults 0 1 []) (asked State.reset))).map (fun r => r.2.2.2.take 4)) =
    some [0x80, 0, 0, 0] := by decide +kernel

/-- Records 315 to 318 of chapter 9's power loss. -/
def logged : State :=
  let r := fun n => closeRecord (newRecord n 7 12 0 0) 0 0 .request none false
  { station .linked with ses := { Ses.reset with log := [r 315, r 316, r 317, r 318], nextNumber := 319 } }

theorem test_read_session : ((slotOf (after (.readSession 0 1 [3]) (asked logged))).map
    (fun r => (r.2.1, r.2.2.2.take 4, r.2.2.2.drop 63))) = some (.done, [0, 0, 1, 62], [0, 0, 0, 4]) := by decide +kernel

theorem test_ack_session : slotOf (after (.ackSession 0 1 (word 318)) (asked logged)) = some (1, .order, 0, word 4) ∧
    slotOf (after (.ackSession 0 1 (word 315)) (asked logged)) = some (1, .done, 0, word 3) := by decide +kernel

theorem test_read_trace : slotOf (after (.readTrace 0 1 [])
    (asked { station .linked with trc := { entries := [], frozen := true, missed := 1 } })) =
      some (1, .done, 0, word 0 ++ word 1 ++ word 1) := by decide +kernel

/-- Weight 2 with eight hours left; a target above 200000 is clamped (R54). -/
theorem test_set_target : ((slotOf (after (.setTarget 0 1 (word 60000 ++ word (81462 + 28800))) (asked (station .session)))).map
    (fun r => r.2.2.2.take 4)) = some (word 2) ∧
    (after (.setTarget 0 1 (word 200001 ++ word 0)) (asked (station .session))).dmu.target = 200000 := by decide +kernel

theorem test_read_peers : ((slotOf (after (.readPeers 0 1 []) (asked (station .linked)))).map (fun r => r.2.2.2.take 12)) =
    some (word 3 ++ word 6000 ++ word 0) := by decide +kernel

/-- OPEN SESSION as session 318 of chapter 9; refused LOG_FULL with 16 records. -/
theorem test_open_session : (let t := after (.openSession 0 1 []) (asked { station .linked with ses := { Ses.reset with nextNumber := 318 } });
    t.stc.op = .session ∧ t.stc.contactor = true ∧ slotOf t = some (1, .done, 0, word 318) ∧ t.ses.nextNumber = 319) ∧
    slotOf (after (.openSession 0 1 []) (asked { logged with ses := { logged.ses with
      log := logged.ses.log ++ logged.ses.log ++ logged.ses.log ++ logged.ses.log } })) = some (1, .logFull, 0, []) := by
  decide +kernel

/-- Chapter 8's short session: 75,645,000 units make 5253 mWh; the lifetime counter goes from 81,204,330 to 81,209,583. -/
theorem test_close_session : let s := station .session
    let t := after (.closeSession 0 1 []) (asked { s with mtr := { s.mtr with
      lifetime := 81204330, interval := { s.mtr.interval with chargeAcc := 75645000, count := 10, estimated := true } } });
    t.mtr.lifetime = 81209583 ∧ t.stc.op = .linked ∧ t.stc.contactor = false ∧
      t.ses.log.map (fun c => (c.reason, c.record.counters.normCharging, c.record.intervalCount, c.record.estimatedCount)) =
        [(.request, 5253, 1, 1)] := by decide +kernel

/-- n is 1 + 3, so T_half is 1800; the number after 41 is 42 (chapter 6). -/
theorem test_measure_now : slotOf (after (.measureNow 0 1 []) (asked { station .session with
    ins := { Ins.reset with lastEpoch := 41 } })) = some (1, .done, 0, word 42 ++ word 1800) := by decide +kernel

/-- The epoch made up has no origin and no cycle yet, whatever the epoch before left (R85). -/
theorem test_measure_now_afresh : let t := after (.measureNow 0 1 []) (asked { station .session with
      ins := { Ins.reset with origin := some 5, cycleCount := 3 } });
    t.ins.epochState = .pending ∧ t.ins.origin = none ∧ t.ins.cycleCount = 0 := by decide +kernel

/-- CALIBRATE METER in READY is refused with NOT_NOW (chapter 12, fourth row); in LINKED it stays in progress. -/
theorem test_calibrate_meter : slotOf (after (.calibrateMeter 0 3 []) (asked (station .ready))) = some (3, .notNow, 0, []) ∧
    (after (.calibrateMeter 0 3 []) (asked (station .linked))).vlk.inProgress = some 3#8 := by decide +kernel

/-- CLEAR FAULT of chapter 11: READY, first-out empty, episode NORMAL; STILL_ACTIVE while the input is asserted. -/
theorem test_clear_fault : (let t := after (.clearFault 0 1 []) (asked { station .halted with
      epi := { Epi.reset with state := .localFault } });
    t.stc.op = .ready ∧ t.flt.firstOut = none ∧ t.epi.state = .normal ∧ t.ptb.entries = []) ∧
    slotOf (after (.clearFault 0 1 []) (asked { station .halted with shu := { Shu.reset with faultInput := true } })) =
      some (1, .stillActive, 0, []) := by decide +kernel

/-- The power loss of chapter 9: the snapshot closes with POWER_LOSS, unrecorded set, at its own time. -/
theorem test_power_on : let s := station .session
    let t := after (.powerOnReset 0) { s with ses := { s.ses with
      snapshot := s.ses.snapshot.map (fun p => { p with time := 82360 }) } };
    t.ses.log.map (fun c => (c.reason, c.unrecorded, c.closeTime, c.faultCode)) = [(.powerLoss, true, 82360, none)] ∧
      t.ses.snapshot = none ∧ t.stc.op = .start ∧ t.vlk.marks.sessionClosed = true := by decide +kernel

/-- Chapter 1 at 700: station 9 announces feeder 5500, so F is 5500 and LIMIT_MISMATCH carries detail 9. -/
theorem test_announce_mismatch : let t := after (.announceArrival 0 (header 9) { shared 600 2 350 353 with feederLimit := 5500 }) (station .listening);
    t.ptb.entries.map PeerEntry.code = [3, 9, 12, 20] ∧ t.ptb.feeder = 5500 ∧
      t.flt.history.map (fun e => (e.code, e.detail)) = [(.limitMismatch, .number 9)] := by decide +kernel

/-- Twenty-four entries, codes 11 and 30 to 52. -/
def fullTable : State :=
  { station .session with ptb := { (station .session).ptb with entries := peer 11 :: (List.range 23).map (fun k => peer (30 + k)) } }

/-- Chapter 1's full table: station 58 starts the unlisted-peer timer for 3000 ms, TABLE_FULL carries 58, the grant is 0. -/
theorem test_announce_full : let t := after (.announceArrival 0 (header 58) (shared 0 1 0 0)) fullTable;
    t.ptb.entries.length = 24 ∧ t.ptb.unlisted = some 4000000 ∧ t.shu.record.zeroCause = .unlisted ∧
      t.flt.history.map (fun e => (e.code, e.detail)) = [(.tableFull, .number 58)] := by decide +kernel

/-- Chapter 6: an EPOCH of T_half 1800 brings OBSERVING with the loss deadline 22600 ms later. -/
theorem test_epoch_arrival : let t := after (.epochArrival 0 (header 3) 42 1800) (station .session);
    t.ins.epochState = .observing ∧ t.ins.injector = 3 ∧ t.ins.lossDeadline = some (1000000 + 22600000) ∧
      t.ins.lastEpoch = 42 := by decide +kernel

/-- Station 12's FINDING of chapter 7, seen at station 7: observing epoch 57 of injector 3 with a branch of 55. -/
def leaking : State :=
  { station .session with ins := { Ins.reset with
      epochState := .observing, epochNumber := 57, injector := 3, tHalf := 1800, cycleCount := 2, origin := some 0
      branchTrack := .accepted 55, lossDeadline := some 22600000, lastEpoch := 57 } }

/-- The own claim test succeeds: CLAIM and LEAVE queued, INS_LOCAL with detail 55, LOCAL_FAULT, HALTED, the session closed with
reason FAULT. -/
theorem test_finding_claims : let t := after (.findingArrival 0 (header 3) 57 0 50 7200) leaking;
    t.stc.op = .halted ∧ t.epi.state = .localFault ∧ t.epi.claimants.map Claimant.code = [7] ∧
      t.dli.queue.claim = some { content := .claim 57 55, failed := 0 } ∧ t.dli.queue.leave.isSome = true ∧
      t.flt.firstOut.map (fun e => (e.time, e.code, e.detail, e.state)) = some (81462, .insLocal, .number 55, .session) ∧
      t.ses.log.map (fun c => (c.reason, c.faultCode)) = [(.fault, some .insLocal)] := by decide +kernel

/-- Station 20's view in chapter 7: CLAIM_WAIT, the window 1500 ms, the trace frozen with a branch absent. -/
theorem test_finding_onset : let t := after (.findingArrival 0 (header 3) 57 0 50 7200) (station .linked);
    t.stc.op = .linked ∧ t.epi.state = .claimWait ∧ t.epi.window = some 2500000 ∧ t.trc.frozen = true ∧
      t.trc.entries.map (fun e => (e.r, e.branch)) = [(some 50, none)] ∧
      t.epi.onset.map (fun o => (o.warnK, o.alarmK)) = some (360, 72) := by decide +kernel

/-- CLAIM from 12 (57, 55): the set is {12} and entry 12 carries the mark. -/
theorem test_claim_arrival : let t := after (.claimArrival 0 (header 12) 57 55) { station .session with epi := { Epi.reset with state := .claimWait, window := some 2500000 } };
    t.epi.claimants = [⟨12, 57, 55, false⟩] ∧ t.epi.state = .claimWait ∧
      t.ptb.entries.map PeerEntry.claimant = [false, true, false] := by decide +kernel

/-- LEAVE from 12: entry 12 removed, member 12 departed. -/
theorem test_leave_arrival : let t := after (.leaveArrival 0 (header 12)) { station .session with epi := { Epi.reset with state := .claimWait, claimants := [⟨12, 57, 55, false⟩] } };
    t.ptb.entries.map PeerEntry.code = [3, 20] ∧ t.epi.claimants = [⟨12, 57, 55, true⟩] := by decide +kernel

/-- A station that is sending receives nothing, not even the identical frame (R150). -/
theorem test_own_code_sending : let s := { station .linked with dli := { Dli.reset with
      attempt := some { kind := .leave, frame := ⟨7, 9, .leave⟩, ends := 1000000, refreshed := false } } }
    after (.leaveArrival 0 (header 7)) s = s := by decide +kernel

/-- A frame with the own code is CODE_CONFLICT with detail 7 and halts (chapter 1). -/
theorem test_own_code : let t := after (.leaveArrival 0 (header 7)) (station .linked);
    t.stc.op = .halted ∧ t.flt.history.map (fun e => (e.code, e.detail)) = [(.codeConflict, .number 7)] ∧
      t.ptb.entries.length = 3 := by decide +kernel

/-- A LEAVE of code 12, whose check value ends in two recessive bits, discarded for a wrong bit in its code or taken: the gap counts the
two bits, and no start bit within the 192 microseconds after the frame's end is taken. -/
theorem test_gap_after_frame : (let bits := (Frame.mk 12 9 .leave).lineBits
    let t := after (.receiveDiscard 0 1000000 (bits.set 12 true)) (station .linked);
    t.ptb.entries.length = 3 ∧ t.dli.gapFrom = 1000160 ∧ t.dli.framerFrom = 1000192) ∧
    (let t := after (.leaveArrival 0 (header 12)) (station .linked);
    t.ptb.entries.length = 2 ∧ t.dli.gapFrom = 1000160 ∧ t.dli.framerFrom = 1000192) := by decide +kernel

/-- The fifth bit of an EPOCH, its kind byte being 14h, is recessive: an attempt cut off within it leaves the line recessive since the
bit's beginning, and one cut off within the sixth, dominant, since the cut. -/
theorem test_cut_off_since : let a : Attempt :=
      { kind := .epoch, frame := ⟨7, 9, .epoch 57 1600⟩, ends := 1000000 + 16 * (Frame.mk 7 9 (.epoch 57 1600)).lineBits.length, refreshed := false };
    a.started = 1000000 ∧ a.recessiveSince 1000072 = 1000064 ∧ a.recessiveSince 1000088 = 1000088 ∧
      a.readBack 1000080 = [false, false, false, false, false] := by decide +kernel

/-- A LEAVE with one bit of its check value wrong is discarded. -/
theorem test_receive_discard : let bits := (Frame.mk 12 9 .leave).lineBits
    let t := after (.receiveDiscard 0 1000000 (bits.set (bits.length - 1) (!(bits.getLast?.getD false)))) (station .linked);
    t.ptb.entries.length = 3 ∧ t.dli.gapFrom = 1000192 := by decide +kernel

/-- CLAIM and LEAVE queued: the CLAIM goes first (chapter 10); 1 + 64 bits of 16 microseconds, no stuff bits. -/
def claiming : State :=
  { station .halted with dli := { Dli.reset with queue := { TxQueue.empty with
      claim := some { content := .claim 57 55, failed := 0 }, leave := some { content := .none, failed := 0 } } } }

theorem test_attempt_start : (after (.attemptStart ⟨0, 999808⟩) claiming).dli.attempt.map (fun a => (a.kind, a.frame.payload)) =
    some (.claim, .claim 57 55) ∧ (after (.attemptStart ⟨0, 999809⟩) claiming).dli.attempt = none := by decide +kernel

/-- An attempt whose last bit is out. -/
def sending (op : OpState) (k : FrameKind) (c : TxContent) (p : Payload) : State :=
  { station op with dli := { Dli.reset with
      queue := TxQueue.empty.set k (some { content := c, failed := 0 })
      attempt := some { kind := k, frame := ⟨7, 9, p⟩, ends := 1000000, refreshed := false } } }

/-- The own ANNOUNCE with the raised intent starts the hold and clears every heard mark (chapter 3 at 11). -/
theorem test_announce_sent : let s := sending .session .announce .none (.announce (shared 450 6 300 450))
    let t := after (.announceSent 0) { s with shu := { s.shu with limit := 300, intent := 450, hold := .holding, raisePending := true } };
    t.shu.raisePending = false ∧ t.shu.holdStart = some 1000000 ∧ t.shu.holdTimer = some 2000000 ∧
      t.ptb.entries.map PeerEntry.heard = [false, false, false] ∧ t.dli.queue.announce = none := by decide +kernel

/-- The own EPOCH sent from PENDING starts cycle 1 with the positive half (chapter 6 at 0). -/
theorem test_epoch_sent : let s := sending .session .epoch (.epoch 42 1800) (.epoch 42 1800)
    let t := after (.epochSent 0) { s with ins := { Ins.reset with epochState := .pending, epochNumber := 42, injector := 7, tHalf := 1800 } };
    t.ins.epochState = .injecting ∧ t.ins.origin = some 1000000 ∧ t.ins.cycleCount = 1 ∧ t.ins.source = .positive := by decide +kernel

/-- The own EPOCH sent again during the sixth cycle ends the epoch UNSETTLED: FINDING 57 with R 0, INS_UNSETTLED with 65535 (R93, R94). -/
theorem test_epoch_sent_sixth : let s := sending .session .epoch (.epoch 57 1800) (.epoch 57 1800)
    let t := after (.epochSent 0) { s with ins := { leaking.ins with epochState := .injecting, injector := 7, cycleCount := 6, resend := true } };
    t.ins.epochState = .idle ∧ t.dli.queue.finding = some { content := .finding 57 1 0 7200, failed := 0 } ∧
      t.flt.history.map (fun e => (e.code, e.detail)) = [(.insUnsettled, .number 65535)] := by decide +kernel

theorem test_finding_sent : (after (.findingSent 0) (sending .session .finding (.finding 42 0 599 7200) (.finding 42 0 599 7200))).dli.queue =
    TxQueue.empty := by decide +kernel

/-- In HALTED with LEAVE still queued the CLAIM's end leaves the table; the LEAVE's end empties it. -/
theorem test_claim_leave_sent : (let s := sending .halted .claim (.claim 57 55) (.claim 57 55)
    (after (.claimSent 0) { s with dli := { s.dli with queue := { s.dli.queue with leave := some { content := .none, failed := 0 } } } }).ptb.entries.length = 3) ∧
    (after (.leaveSent 0) (sending .halted .leave .none .leave)).ptb.entries = [] := by decide +kernel

/-- The fourth failure drops a CLAIM: drop record CLAIM with count 1, FRAME_DROPPED; the third keeps it. -/
def failing (n : Nat) : State :=
  let s := sending .halted .claim (.claim 57 55) (.claim 57 55)
  { s with dli := { s.dli with queue := s.dli.queue.set .claim (some { content := .claim 57 55, failed := n }) } }

theorem test_attempt_failed : (let t := after (.attemptFailed 0) (failing 3);
    t.dli.queue.claim = none ∧ t.dli.dropKind = some .claim ∧ t.dli.dropCount = 1 ∧ t.vlk.marks.frameDropped = true) ∧
    (after (.attemptFailed 0) (failing 2)).dli.queue.claim = some { content := .claim 57 55, failed := 3 } := by decide +kernel

/-- An attempt begun at 1000, where the gap of a frame that ended in two recessive bits was complete and the framer's mark at 1032: the
winning frame, begun with it, is heard though its start bit comes before the mark. -/
theorem test_beaten : let a : Attempt := { kind := .leave, frame := ⟨7, 9, .leave⟩, ends := 1000 + 16 * (Frame.mk 7 9 .leave).lineBits.length, refreshed := false }
    let s := { station .linked with dli := { Dli.reset with attempt := some a, queue := { TxQueue.empty with leave := some ⟨.none, 0⟩ }, framerFrom := 1032 } }
    let t := after (.attemptFailed 0) s;
    t.dli.framerFrom = 1000 ∧ framerTook s 1000 = false ∧ framerTook t 1000 = true := by decide +kernel

theorem test_backoff_end : (after (.backoffEnd 0) { station .linked with dli := { Dli.reset with backoff := some 1000000 } }).dli.backoff =
    none := by decide +kernel

/-- Station 7 with one peer silent for `ms` milliseconds. -/
def silent (op : OpState) (ms : Nat) : State :=
  { station op with ptb := { (station op).ptb with entries := [{ peer 41 with share := shared 800 4 800 800, silence := ms * 1000 }] } }

/-- Entry 41 goes STALE at 1500 ms with its reserve frozen, and is removed at 3000 ms (chapter 1). -/
theorem test_stale : let t := after (.staleThreshold 0 41) (silent .session 1500);
    t.ptb.entries.map PeerEntry.freshness = [.stale] ∧ t.shu.record.frozen = 800 := by decide +kernel

theorem test_removal : (after (.removalThreshold 0 41) (silent .session 3000)).ptb.entries = [] ∧
    (after (.removalThreshold 0 41) (silent .session 2999)).ptb.entries.length = 1 := by decide +kernel

theorem test_unlisted_end : let t := after (.unlistedPeerTimerExpiry 0) { fullTable with ptb := { fullTable.ptb with unlisted := some 1000000 } };
    t.ptb.unlisted = none ∧ t.shu.record.zeroCause = .none := by decide +kernel

/-- A hold of 420 with every condition met, the limit 300. -/
def holding : State :=
  { station .session with shu := { (station .session).shu with
      limit := 300, intent := 420, hold := .holding, holdStart := some 0, holdTimer := some 1000000
      record := { GrantRecord.reset with available := 5700, grant := 420, zeroCause := .none } } }

/-- L becomes the smaller of 420 and 420, STEADY, ANNOUNCE queued; with entry 12 unheard the hold continues (chapter 3). -/
theorem test_hold : (let t := after (.holdTimerExpiry 0) holding;
    t.shu.limit = 420 ∧ t.shu.hold = .steady ∧ t.shu.peak = 420 ∧ t.dli.queue.announce.isSome = true) ∧
    (let t := after (.holdTimerExpiry 0) { holding with ptb := { holding.ptb with
        entries := [peer 3, { peer 12 with heard := false }, peer 20] } };
    t.shu.limit = 300 ∧ t.shu.hold = .holding ∧ t.shu.holdStart = some 0) := by decide +kernel

theorem test_announce_timer : let t := after (.announceTimerExpiry 0) { station .linked with
      dli := { Dli.reset with sequence := 1, announce := some 1000000 } };
    t.dli.queue.announce.isSome = true ∧ t.dli.announce.isSome = true ∧ t.dli.sequence ≠ 1 := by decide +kernel

theorem test_listen_end : let t := after (.listenWindowExpiry 0) { station .listening with
      stc := { (station .listening).stc with listenWindow := some 1000000 } };
    t.stc.op = .linked ∧ t.stc.listenWindow = none ∧ t.dli.queue.announce.isSome = true := by decide +kernel

/-- Chapter 5's switching sequence: zone order 3, 1, 2, 4, all four WAITING but zone 3, allowance 270. -/
def warming : State :=
  { station .session with
    cfg := { settings7 with zoneOrder := [.z3, .z1, .z2, .z4] }
    shu := { (station .session).shu with
      limit := 570, intent := 570, record := { (station .session).shu.record with grant := 570, zeroCause := .none } }
    dmu := { Dmu.reset with chargerDemand := 300, heaterDemand := 270, ownDemand := 570, chargerAllow := 300, heaterAllow := 270 }
    htr := { Htr.reset with
      cycleStart := some 0, contactor := true, stagger := some 1000000
      zones := ⟨⟨.waiting, some 25, 0, none⟩, ⟨.waiting, some 40, 0, none⟩, ⟨.heating, some 12, 0, none⟩,
        ⟨.waiting, some 60, 0, none⟩⟩ } }

/-- At 2.000 the window is open and the test fails; without it zone 1 is next, and the stagger runs 2 s more. -/
theorem test_stagger : (let t := after (.staggerTimerExpiry 0) { warming with htr := { warming.htr with window := true } };
    t.htr.stagger = none ∧ t.htr.zones.q1.state = .waiting) ∧
    (let t := after (.staggerTimerExpiry 0) warming;
    t.htr.zones.q1.state = .heating ∧ t.htr.zones.q2.state = .waiting ∧ t.htr.stagger = some 3000000) := by decide +kernel

theorem test_idle_end : let t := after (.idleTimerExpiry 0) { station .session with htr := { Htr.reset with contactor := true, idle := some 1000000 } };
    t.htr.contactor = false ∧ t.htr.idle = none := by decide +kernel

theorem test_epoch_timer : let t := after (.epochTimerExpiry 0) { station .session with ins := { Ins.reset with
      lastEpoch := 41, epochTimer := some 1000000 } };
    t.ins.epochState = .pending ∧ t.dli.queue.epoch = some { content := .epoch 42 1800, failed := 0 } ∧ t.ins.lastEpoch = 42 := by
  decide +kernel

theorem test_loss : let t := after (.lossDeadline 0) { leaking with ins := { leaking.ins with lossDeadline := some 1000000 } };
    t.ins.epochState = .idle ∧ t.ins.branchRecord = some ⟨57, 3, some 55⟩ ∧ t.ins.epochTimer = some (1000000 + 30700000) := by
  decide +kernel

/-- A claim window that has run out, with these claimants. -/
def waited (cs : List Claimant) : State :=
  { station .session with epi := { state := .claimWait, claimants := cs, window := some 1000000, onset := some ⟨57, 3, 50, 7200, 360, 72⟩ } }

theorem test_claim_window : (after (.claimWindowExpiry 0) (waited [⟨12, 57, 55, true⟩])).epi.state = .attributed ∧
    (let t := after (.claimWindowExpiry 0) (waited []);
    t.epi.state = .busFault ∧ t.flt.history.map (fun e => (e.code, e.detail)) = [(.insBus, .number 50)] ∧ t.stc.op = .session) := by
  decide +kernel

/-- Zone 3 is the last one not OUT, and its heating time stands at the dose limit. -/
def lastZone : State :=
  let out : Zone := { state := .out, temp := none, heatTime := 0, outCause := some .overtemp }
  { warming with htr := { warming.htr with zones := ⟨out, out, ⟨.heating, some 12, 3600000000, none⟩, out⟩ } }

/-- The last zone's move to OUT raises HEATER_ZONE and then HEATER_ALL_OUT with its detail, and starts the idle timer of 30 s. -/
theorem test_all_out : let t := after (.doseLimit 0 .z3) lastZone;
    t.flt.history.map (fun e => (e.code, e.detail)) =
      [(.heaterZone, .zone .z3 .ineffective), (.heaterAllOut, .zone .z3 .ineffective)] ∧
    t.stc.op = .session ∧ t.htr.idle = some 31000000 := by decide +kernel

theorem test_dose : let t := after (.doseLimit 0 .z3) { warming with htr := { warming.htr with
      zones := warming.htr.zones.set .z3 ⟨.heating, some 12, 3600000000, none⟩ } };
    t.htr.zones.q3.state = .out ∧ t.htr.zones.q3.outCause = some .ineffective ∧
      t.flt.history.map (fun e => (e.code, e.detail)) = [(.heaterZone, .zone .z3 .ineffective)] := by decide +kernel

/-- Cycle 3 of chapter 6, its last half due: the positive half's samples and two of the negative's taken, 600 held. -/
def lastHalf : State :=
  { station .session with
    now := 10800000
    stc := { (station .session).stc with clockMicros := 81462000000 }
    htr := { Htr.reset with window := true }
    ins := { Ins.reset with
      epochState := .injecting, epochNumber := 42, injector := 7, tHalf := 1800, origin := some 0, cycleCount := 3
      busTrack := some 600, branchTrack := .accepted 50000, source := .negative, halfStart := some 9000000, half := .negative
      points := 2, samplesU := [31000, 31220, 31240, -28450, -28735], samplesI := [1, 1, 1, 0, 0], lastEpoch := 42 } }

theorem test_cycle_sample : let t := after (.cycleSample 0 31000 1) { lastHalf with
      ins := { lastHalf.ins with halfStart := some 9600000, half := .positive, points := 0, samplesU := [], samplesI := [] }
      htr := Htr.reset };
    t.ins.samplesU = [31000] ∧ t.ins.points = 1 ∧ t.htr.window = true := by decide +kernel

/-- Accepted with 599: FINDING 42, ACCEPTED, 599, 7200 queued; bus record and trace entry; IDLE; the window closed. -/
theorem test_half_end : let t := after (.halfEnd 0 (-28740) 0) lastHalf;
    t.dli.queue.finding = some { content := .finding 42 0 599 7200, failed := 0 } ∧
      t.ins.busRecord = some ⟨42, 7, 599, 7200, 81462⟩ ∧ t.ins.branchRecord = some ⟨42, 7, some 50000⟩ ∧
      t.ins.epochState = .idle ∧ t.ins.source = .off ∧ t.htr.window = false ∧ t.epi.state = .normal ∧
      t.ins.epochTimer = some (10800000 + 30700000) := by decide +kernel

/-- Thresholds of 720 and 1440 kilohm at 7200 dV, and an own branch at 50. -/
def lastHalfLow : State :=
  { lastHalf with cfg := { settings7 with warn := 2000, alarm := 1000 }, ins := { lastHalf.ins with branchTrack := .accepted 50 } }

/-- The own finding of 599 begins an onset and the station claims with 50: trace entry, INS_LOCAL, HALTED, the epoch timer stopped; and an
observer's cycle without samples leaves no cycle record (R85). -/
theorem test_half_end_claims : (let t := after (.halfEnd 0 (-28740) 0) lastHalfLow;
    t.epi.state = .localFault ∧ t.stc.op = .halted ∧ t.trc.frozen = true ∧
      t.trc.entries = [⟨42, 7, some 599, 7200, some (some 50), 81462⟩] ∧ t.flt.history.map (fun e => (e.code, e.detail)) =
        [(.insLocal, .number 50)] ∧ t.ins.epochTimer = none) ∧
    (after (.halfEnd 0 0 0) { lastHalf with ins := { lastHalf.ins with
      epochState := .observing, injector := 3, branchTrack := .accepted 50, samplesU := [], samplesI := []
      cycleRecord := some ([1, 2, 3, 4, 5, 6], [1, 2, 3, 4, 5, 6]) } }).ins.cycleRecord = none := by decide +kernel

/-- Chapter 8, samples 2 and 3: corrected 3 adds 21,600 units, corrected -4 adds none and marks the interval reverse. -/
theorem test_meter_sample : let s := station .session
    (after (.meterSample 0 ⟨7200, 17, 0⟩) { s with mtr := { s.mtr with offset := 14 } }).mtr.interval.chargeAcc = 21600 ∧
      (let t := after (.meterSample 0 ⟨7200, 10, 0⟩) { s with mtr := { s.mtr with offset := 14 } };
      t.mtr.interval.chargeAcc = 0 ∧ t.mtr.interval.reverse = true ∧ t.mtr.interval.count = 1) := by decide +kernel

/-- Chapter 8's full interval after sample 239: sample 240 credits 90,000 and 360,000 mWh at PEAK and leaves 9600 units. -/
def interval239 : State :=
  let s := station .session
  { s with
    shu := { s.shu with limit := 447, record := { GrantRecord.reset with available := 5700, balance := 5700 } }
    mtr := { s.mtr with offset := 12, lifetime := 1000, interval :=
      { heatAcc := 1290600000, chargeAcc := 5162409600, count := 239, band := .peak, estimated := false, reverse := false,
        number := 2 } } }

theorem test_interval_end : let t := after (.intervalEnd 0 ⟨7200, 3762, 750⟩) interval239;
    t.mtr.lifetime = 451000 ∧ t.ses.openRecord.map (fun r => (r.counters.peakHeating, r.counters.peakCharging, r.intervalCount)) =
      some (90000, 360000, 1) ∧ t.mtr.interval.chargeAcc = 9600 ∧ t.mtr.interval.heatAcc = 0 ∧ t.mtr.interval.number = 3 ∧
      t.ses.snapshot.map Snapshot.lifetime = some 451000 := by decide +kernel

/-- Three samples have crossed the threshold already. -/
def crossing (op : OpState) (p : Presence) : State :=
  { station op with mtr := { (station op).mtr with presence := p, run := 3 } }

theorem test_bus_present : let t := after (.busPresent 0 ⟨7200, 0, 0⟩) (crossing .ready .absent);
    t.stc.op = .listening ∧ t.stc.listenWindow = some 2000000 ∧ t.htr.cycleStart = some 1000000 := by decide +kernel

theorem test_bus_lost : let t := after (.busLost 0 ⟨1999, 0, 0⟩) (crossing .session .present);
    t.stc.op = .ready ∧ t.stc.contactor = false ∧ t.ptb.entries = [] ∧ t.mtr.presence = .absent ∧
      t.ses.log.map ClosedRecord.reason = [.busLost] ∧ t.dli.queue.leave.isSome = true := by decide +kernel

/-- Three samples above the bound of 4300 cA, the limit 420. -/
def drawing (stops : Bool) : State :=
  let s := station .session
  { s with cfg := { settings7 with policies := { Policies.default with overdraw := stops } },
           shu := { s.shu with limit := 420, overCount := 3 } }

/-- Chapter 3's sample 5 under the continue policy: OVERDRAW with detail 5002, wait set; under the stop policy it halts. -/
theorem test_overdraw : (let t := after (.overdraw 0 ⟨7200, 5002, 0⟩) (drawing false);
    t.flt.history.map (fun e => (e.code, e.detail)) = [(.overdraw, .number 5002)] ∧ t.shu.overWait = true ∧
      t.shu.overCount = 0 ∧ t.stc.op = .session) ∧
    (after (.overdraw 0 ⟨7200, 5002, 0⟩) (drawing true)).stc.op = .halted := by decide +kernel

/-- At or above T_target + hysteresis a HEATING zone goes WARM; an open sensor takes it OUT (chapter 5 at 1250 and 1400.3). -/
theorem test_conversion : (after (.temperatureConversion 0 .z3 (.reading 121)) warming).htr.zones.q3.state = .warm ∧
    (let t := after (.temperatureConversion 0 .z4 .openCircuit) warming;
    t.htr.zones.q4.state = .out ∧ t.htr.zones.q4.outCause = some .sensorOpen ∧ t.dmu.heaterDemand = 210) := by decide +kernel

/-- One conversion in a cycle (R70): a second in the same 1000 ms does nothing; a zone that goes WARM at the very moment its dose
reaches the limit keeps a heating time just short of it (R78). -/
theorem test_conversion_once : (let s := after (.temperatureConversion 0 .z3 (.reading 30)) warming
    after (.temperatureConversion 1999999 .z3 (.reading 121)) s = elapse 1999999 s ∧
      (after (.temperatureConversion 2000000 .z3 (.reading 121)) s).htr.zones.q3.state = .warm) ∧
    (let t := after (.temperatureConversion 0 .z3 (.reading 121)) { warming with htr := { warming.htr with
      zones := warming.htr.zones.set .z3 ⟨.heating, some 12, 3600000000, none⟩ } };
    t.htr.zones.q3.state = .warm ∧ t.htr.zones.q3.heatTime = 3599999999) := by decide +kernel

/-- A period abandoned by the session's opening at this moment whose sample reports the loss (R134): the close, no sample counted. -/
theorem test_overtaken : let s := crossing .session .present
    let t := after (.busLost 0 ⟨1999, 0, 0⟩) { s with mtr := { s.mtr with periodEnd := some 1250000, overtaken := some 1000000 } };
    t.stc.op = .ready ∧ t.ses.log.map (fun c => (c.reason, c.record.intervalCount)) = [(.busLost, 0)] := by decide +kernel

theorem test_converter : let t := after (.converterFaultInput 0 true) (station .session);
    t.stc.op = .halted ∧ t.flt.history.map FaultEntry.code = [.converter] := by decide +kernel

/-! ## Witnesses: a concrete state and operands for the hypotheses of each statement, clause by clause -/

/-- A command leads to a next state. -/
def completes (c : Instr) (s : State) : Bool :=
  match exec c s with
  | .next _ => true
  | .fault _ => false
  | .refused _ => false

theorem completes_next {c : Instr} {s : State} (h : completes c s = true) : exec c s = .next (after c s) := by
  unfold completes at h
  unfold after
  split at h <;> simp_all

theorem witness_StepRunsFront : { State.reset with pending := [.nop 0] }.pending = [.nop 0] := rfl

/-- Both cases of an empty queue: a due event, and none. -/
def backingOff : State := { station .linked with dli := { Dli.reset with backoff := some 1000000 } }

theorem witness_ExecKeepsQueue : exec (.openSession 0 1 []) (asked (station .linked)) =
    .next (after (.openSession 0 1 []) (asked (station .linked))) := completes_next (by decide +kernel)

/-- A moment that has come and the first one to come, with a zone HEATING beside zones that are not and entries of a table. -/
theorem witness_TimeAndIdleSteps : (Instr.nop 1000000).moment ≤ (station .linked).now ∧ backingOff.pending = [] ∧
    dueCommand backingOff = some (.backoffEnd 1000000) ∧ State.reset.pending = [] ∧ dueCommand State.reset = none ∧
    1000000 ≤ warming.now ∧ warming.now < 1000001 ∧ warming.htr.zones.q3.state = .heating ∧
    warming.htr.zones.q1.state ≠ .heating ∧ warming.ptb.entries ≠ [] ∧ warming.stc.clockSet = true ∧
    State.reset.now < 1 ∧ State.reset.stc.clockSet = false := by
  decide +kernel

/-- One second: every silence grows by it up to 6 T_a, the heating time of the HEATING zone alone, and the clock, which stops at its
top (R1, R10, R77, R158). -/
theorem test_time_passes : (let t := elapse 2000000 warming
    t.ptb.entries.map PeerEntry.silence = [1000000, 1000000, 1000000] ∧ t.htr.zones.map Zone.heatTime = ⟨0, 0, 1000000, 0⟩ ∧
      clock t = clock warming + 1) ∧
    (elapse 9000000 warming).ptb.entries.map PeerEntry.silence = [3000000, 3000000, 3000000] ∧
    clock (elapse 9000000 { warming with stc := { warming.stc with clockMicros := 4294967295000000 } }) = 4294967295 := by
  decide +kernel

/-- The frames over all commands hold of a command that does something. -/
theorem witness_TrimReadAtPowerOnOnly : exec (.softReset 0 1 []) (asked (station .session)) =
    .next (after (.softReset 0 1 []) (asked (station .session))) ∧ ∀ m, Instr.softReset 0 1 [] ≠ .powerOnReset m :=
  ⟨completes_next (by decide +kernel), fun _ => by simp⟩

theorem witness_RetainedCountsNeverFall : exec (.intervalEnd 0 ⟨7200, 3762, 750⟩) interval239 =
    .next (after (.intervalEnd 0 ⟨7200, 3762, 750⟩) interval239) := completes_next (by decide +kernel)

theorem witness_SettingsChangeAtConfigureAndReset :
    exec (.openSession 0 1 []) (asked (station .linked)) = .next (after (.openSession 0 1 []) (asked (station .linked))) ∧
      (∀ m, Instr.openSession 0 1 [] ≠ .powerOnReset m) ∧ (∀ m g p, Instr.openSession 0 1 [] ≠ .configure m g p) ∧
      (∀ m g p, Instr.openSession 0 1 [] ≠ .softReset m g p) ∧ (∀ m bs, Instr.openSession 0 1 [] ≠ .unknownCode m bs) ∧
    exec (.unknownCode 0 [0x10#8, 1, 0]) (asked (station .linked)) = .next (after (.unknownCode 0 [0x10#8, 1, 0]) (asked (station .linked))) ∧
      (∀ m bs, Instr.unknownCode 0 [0x10#8, 1, 0] = .unknownCode m bs → bs.getD 0 0 ≠ 0x03#8 ∧ bs.getD 0 0 ≠ 0x04#8) :=
  ⟨completes_next (by decide +kernel), fun _ => by simp, fun _ _ _ => by simp, fun _ _ _ => by simp, fun _ _ => by simp,
    completes_next (by decide +kernel), fun _ _ h => by cases h; decide⟩

/-- A session with a zone heating and an epoch injecting, about to be halted by the converter's fault input. -/
def busy : State :=
  { warming with
    ins := lastHalf.ins
    shu := { warming.shu with record := computeGrant warming.grantInputs }
    pending := [.converterFaultInput 0 true] }

/-- Every invariant holds of the busy session, and a step leads on from it. -/
theorem witness_invariants : ContactorSafe busy ∧ QuietSafe busy ∧ InjectionSafe busy ∧ HeaterSafe busy ∧ SessionSafe busy ∧
    RingsSafe busy ∧ TableSafe busy ∧ LimitSafe busy ∧ step busy = .next (after (.converterFaultInput 0 true) { busy with pending := [] }) := by
  refine ⟨by unfold ContactorSafe; decide +kernel, by unfold QuietSafe; decide +kernel, by unfold InjectionSafe; decide +kernel,
    ⟨by decide +kernel, by decide +kernel, fun z => by cases z <;> decide, by decide +kernel, by decide +kernel,
      by decide +kernel⟩, by unfold SessionSafe; decide +kernel, by unfold RingsSafe; decide +kernel,
    by unfold TableSafe; decide +kernel, by unfold LimitSafe; decide +kernel, ?_⟩
  show exec (.converterFaultInput 0 true) { busy with pending := [] } = _
  exact completes_next (by decide +kernel)

/-- At the full ring, log and table, with the counts at their tops. -/
def brimming : State :=
  { fullTable with
    flt := { Flt.reset with history := List.replicate 12 { time := 0, code := .insWarn, detail := .number 0, state := .session } }
    trc := { entries := List.replicate 32 ⟨1, 3, none, 7200, none, 0⟩, frozen := true, missed := 255 }
    ses := { { Ses.reset with nextNumber := 16 }.openSession 7 9 81400 0 with
      log := (List.range 15).map (fun k => closeRecord (newRecord (k + 1) 7 9 0 0) 0 0 .request none false) }
    dli := { Dli.reset with dropCount := 65535 } }

theorem witness_invariants_full : RingsSafe brimming ∧ TableSafe brimming ∧ SessionSafe brimming := by
  refine ⟨by unfold RingsSafe; decide +kernel, by unfold TableSafe; decide +kernel, by unfold SessionSafe; decide +kernel⟩

theorem witness_FrameReadBack : headerOk 255 63 255 = true ∧ headerOk 9 1 9 = true ∧ (shared 65535 255 65535 65535).fits = true := by
  decide

theorem witness_FramerHandsOnSoundFrames : readFrame 9 (Frame.mk 12 9 .leave).lineBits = some (Frame.mk 12 9 .leave) := by
  decide +kernel

/-- Feeder and margin at their tops, at 0, and at the least feeder with the greatest margin of a configuration. -/
theorem witness_AvailableCurrent :
    ({ fiveStations with feeder := 40000, margin := 1000 }.feeder ≤ 40000 ∧
      { fiveStations with feeder := 40000, margin := 1000 }.margin ≤ 1000) ∧
    { fiveStations with feeder := 0 }.feeder = 0 ∧
    (100 ≤ { fiveStations with feeder := 100, margin := 200 }.feeder ∧
      { fiveStations with feeder := 100, margin := 200 }.margin ≤ 200) := by decide

theorem witness_WaterFillWithinPool : let ps : List Participant := [⟨true, 7, 450, 6⟩, ⟨false, 3, 2000, 10⟩];
    (∀ p ∈ ps, 1 ≤ p.weight) ∧ (ps.map Participant.demand).sum ≤ 2450 ∧ 2449 < (ps.map Participant.demand).sum ∧
      (waterFill 2449 ps)[1]? = some (⟨false, 3, 2000, 10⟩, 1999) := by decide

/-- STALE and FRESH entries, S below A; an S above A, where A1 is 0; a session, none, and one with the unlisted-peer timer. -/
theorem witness_GrantWithinReserve : (computeGrant fiveStations).frozen = 800 ∧
    (computeGrant { fiveStations with feeder := 800 }).available < 800 ∧ fiveStations.inSession = true ∧ fiveStations.unlisted = false ∧
    (station .linked).grantInputs.inSession = false ∧ (station .linked).stc.op ≠ .session ∧ (station .session).stc.op = .session ∧
    (station .session).ses.openRecord ≠ none ∧ { (station .session).ptb with unlisted := some 3000000 }.unlisted ≠ none := by
  decide

/-- HEATER_FIRST without a T_min and with one just below T_permit; CHARGER_FIRST with one at T_permit. -/
theorem witness_SplitWithinLimit : ({ Dmu.reset with tMin := none }.split 0 447).order = .heaterFirst ∧
    ({ Dmu.reset with tMin := some (-1) }.split 0 447).order = .heaterFirst ∧
    ({ Dmu.reset with tMin := some 0 }.split 0 447).order = .chargerFirst := by decide

theorem witness_SplitOrder : let z : Zone := { Zone.reset with state := .out };
    ∀ i, (Quad.mk z z z z : Quad Zone).get i = z ∧ z.state = .out := by
  intro z i
  cases i <;> exact ⟨rfl, rfl⟩

/-- At 0, just above, just below 2 U_i and at it; the branch at 1 and 2 microampere; two estimates a tenth apart. -/
theorem witness_EstimatesInRange : ((0 : Int) ≤ 0 ∧ (0 : Int) < 1 ∧ (79999 : Int) < 2 * 40000 ∧ 2 * (40000 : Int) ≤ 80000) ∧
    ((1 : Int) < 2 ∧ (2 : Int) ≤ 2 ∧ (0 : Int) < 1) ∧ 10 * (max 600 540 - min 600 540) ≤ max 600 540 ∧
    ¬ 10 * (max 600 539 - min 600 539) ≤ max 600 539 := by decide

/-- A station whose slot holds a record. -/
def holdsRecord : State :=
  { station .linked with vlk := { Vlk.reset with slot := some { tag := 5, code := 1, result := .done, clampMask := 0, data := [1, 2, 3, 4] } } }

/-- No record with one byte clocked; a record with exactly its last byte clocked, and with one byte less. -/
theorem witness_TransactionShiftsOut : (elapse 0 (station .linked)).vlk.slot = none ∧ 1 ≤ 1 ∧
    ∃ r, (elapse 0 holdsRecord).vlk.slot = some r ∧ 14 ≤ 1 + r.bytes.length ∧ 1 + r.bytes.length ≤ 14 ∧ 13 < 1 + r.bytes.length := by
  refine ⟨rfl, by decide, _, rfl, by decide +kernel, by decide +kernel, by decide +kernel⟩

/-- The shortest whole request with code 10h, the command listing two of its bytes, and one of 255 parameter bytes with code FFh. -/
theorem witness_NopAndUnknownCode :
    (let s := { station .linked with vlk := { Vlk.reset with txn := some { status := 0, clocked := 3 } } }
    let bs := ([0x10#8, 5] ++ List.replicate (3 - [0x10#8, 5].length) 0#8).take 3
    (elapse 0 s).vlk.txn = some { status := 0, clocked := 3 } ∧ 3 + (bs.getD 2 0).toNat ≤ 3 ∧ 15 < (bs.getD 0 0).toNat ∧
      busyBit 0 = false ∧ (elapse 0 s).vlk.slot = none) ∧
    (3 + (([0xFF#8, 5, 255] ++ List.replicate 255 0).getD 2 0).toNat ≤ ([0xFF#8, 5, 255] ++ List.replicate 255 0).length) := by
  decide +kernel

/-- One byte short; BUSY shown; the slot full; and a raw transfer of code FFh one byte short, which the same states with BUSY and with
the full slot discard. -/
theorem witness_RequestDiscarded : (0x01#8, Instr.readStatus) ∈ requests ∧
    (let x : Txn := { status := 0, clocked := 2 }
    (elapse 0 { station .linked with vlk := { Vlk.reset with txn := some x } }).vlk.txn = some x ∧
      x.clocked < 3 + ([] : List Byte).length) ∧
    (let x : Txn := { status := 0x80, clocked := 3 }
    (elapse 0 { station .linked with vlk := { Vlk.reset with txn := some x } }).vlk.txn = some x ∧
      busyBit x.status = true ∧ (0x01#8 : Byte) ≠ 0x03#8) ∧
    (let x : Txn := { status := 0, clocked := 3 }
    (elapse 0 { holdsRecord with vlk := { holdsRecord.vlk with txn := some x } }).vlk.txn = some x ∧
      (elapse 0 { holdsRecord with vlk := { holdsRecord.vlk with txn := some x } }).vlk.slot ≠ none) ∧
    (let bs := ([0xFF#8, 5, 2, 0] ++ List.replicate (4 - 4) 0#8).take 4
    4 < 3 + (bs.getD 2 0).toNat ∧ bs.getD 0 0 ≠ 0x03#8) :=
  ⟨by simp [requests], by decide +kernel, by decide +kernel, by decide +kernel, by decide⟩

/-- A request of `n` parameter bytes, exactly clocked, meets nothing that discards it. -/
def askedFor (n : Nat) (s : State) : State :=
  { s with vlk := { s.vlk with txn := some { status := 0, clocked := 3 + n }, slot := none } }

theorem witness_ready (params : List Byte) (op : OpState) : RequestReady params (elapse 0 (askedFor params.length (station op))) :=
  ⟨{ status := 0, clocked := 3 + params.length }, rfl, Nat.le_refl _, by simp [busyBit], rfl⟩

theorem witness_RequestRefused : (0x0B#8, Instr.openSession) ∈ requests ∧
    (0x0B#8, [OpState.linked]) ∈ servedStates ∧ (0x0B#8, 0) ∈ requestLengths ∧
    (elapse 0 (askedFor 0 (station .session))).stc.op ∉ [OpState.linked] ∧
    (elapse 0 (askedFor 1 (station .linked))).stc.op ∈ [OpState.linked] ∧ [(0#8 : Byte)].length ≠ 0 ∧
    requests.map Prod.fst = servedStates.map Prod.fst ∧ requests.map Prod.fst = requestLengths.map Prod.fst :=
  ⟨by simp [requests], by simp [servedStates], by simp [requestLengths], by decide, by decide, by decide, by decide, by decide⟩

/-- READ PEERS in each of its states; the others in any (`witness_ready`). -/
theorem witness_PureReadsAnswer : (elapse 0 (askedFor 0 (station .listening))).stc.op = .listening ∧
    (elapse 0 (askedFor 0 (station .linked))).stc.op = .linked ∧ (elapse 0 (askedFor 0 (station .session))).stc.op = .session := by
  decide

/-- Index 3 of four records; index 4 and 15 beyond them; OPEN with and without a session; selectors 16 and 254. -/
theorem witness_ReadSessionAnswers : RequestReady [3] (elapse 0 (askedFor 1 logged)) ∧
    (∃ c, (elapse 0 (askedFor 1 logged)).ses.log[3]? = some c) ∧ (elapse 0 (askedFor 1 logged)).ses.log.length ≤ 4 ∧
    (15#8 : Byte).toNat ≤ 15 ∧ (elapse 0 (askedFor 1 logged)).ses.openRecord = none ∧
    (∃ o p, (elapse 0 (askedFor 1 (station .session))).ses.openRecord = some o ∧
      (elapse 0 (askedFor 1 (station .session))).ses.snapshot = some p) ∧
    15 < (16#8 : Byte).toNat ∧ (254#8 : Byte) ≠ 255#8 :=
  ⟨⟨{ status := 0, clocked := 4 }, rfl, Nat.le_refl _, by decide, rfl⟩, ⟨_, rfl⟩, by decide +kernel, by decide, rfl,
    ⟨_, _, rfl, rfl⟩, by decide, by decide⟩

/-- Record 315 is the oldest, 318 a later one, 319 none. -/
theorem witness_AckSessionAnswers : RequestReady (word 315) (elapse 0 (askedFor 4 logged)) ∧ (word 315).length = 4 ∧
    (∃ c cs, (elapse 0 (askedFor 4 logged)).ses.log = c :: cs ∧ c.record.number = ofBytes (word 315) ∧
      c.record.number ≠ ofBytes (word 318) ∧ ∃ x ∈ cs, x.record.number = ofBytes (word 318)) ∧
    ∀ x ∈ (elapse 0 (askedFor 4 logged)).ses.log, x.record.number ≠ ofBytes (word 319) := by
  refine ⟨⟨{ status := 0, clocked := 7 }, rfl, by decide, by decide, rfl⟩, by decide,
    ⟨_, _, rfl, by decide +kernel, by decide +kernel, _, List.mem_cons_of_mem _ (List.mem_cons_of_mem _ (List.mem_singleton.2 rfl)),
      by decide +kernel⟩, by decide +kernel⟩

/-- A block accepted, and one with no permutation but the order's default; refused ones: station codes 0 and 64, depot code 0, feeder
limit 0, no permutation. -/
theorem witness_ConfigureAnswers : RequestReady block (elapse 0 (askedFor 91 State.reset)) ∧
    (elapse 0 (askedFor 91 State.reset)).stc.op = .start ∧ block.length = 91 ∧
    (let order := fun (bs : List Byte) => ((bs.drop 57).take 4).map BitVec.toNat
    let refused := fun (bs : List Byte) => fieldAt bs 4 1 = 0 ∨ 63 < fieldAt bs 4 1 ∨ fieldAt bs 5 1 = 0 ∨ fieldAt bs 6 2 = 0 ∨
      (fieldAt bs 0 4).testBit 13 = false ∧ ¬ (order bs).Perm [1, 2, 3, 4]
    ¬ refused block ∧ ¬ refused ((block.set 57 2).set 2 0x20) ∧ refused (block.set 4 0) ∧ refused (block.set 4 64) ∧
      refused (block.set 5 0) ∧ refused ((block.set 6 0).set 7 0) ∧ refused (block.set 57 2)) :=
  ⟨⟨{ status := 0, clocked := 94 }, rfl, by decide +kernel, by decide, rfl⟩, by decide +kernel, by decide +kernel,
    by decide +kernel⟩

theorem witness_SetTargetAnswers : RequestReady (word 200000 ++ word 0) (elapse 0 (askedFor 8 (station .ready))) ∧
    (elapse 0 (askedFor 8 (station .ready))).stc.op ≠ .start ∧ (word 200000 ++ word 0).length = 8 :=
  ⟨⟨{ status := 0, clocked := 11 }, rfl, by decide, by decide, rfl⟩, by decide, by decide⟩

/-- Room at 15 records and the bounds of R134; none at 16; an episode that blocks and one that does not; no bus record, one exactly 2 E
old and one a second older. -/
theorem witness_OpenSessionAnswers : (askedFor 0 (station .linked)).stc.op = .linked ∧
    (let s := { askedFor 0 logged with
      ses := { logged.ses with log := List.replicate 15 (closeRecord (newRecord 1 7 9 0 0) 0 0 .request none false), nextNumber := 4294967294 }
      mtr := { logged.mtr with lifetime := 2 ^ 48 - 1 - 6 * 4294967295 } };
    (elapse 0 s).stc.op = .linked ∧ (elapse 0 s).ses.log.length ≤ 15 ∧ (elapse 0 s).ses.nextNumber < 4294967295 ∧
      (elapse 0 s).mtr.lifetime ≤ 2 ^ 48 - 1 - 6 * 4294967295 ∧ (elapse 0 s).epi.state = .normal) ∧
    ¬ (List.replicate 16 (closeRecord (newRecord 1 7 9 0 0) 0 0 .request none false)).length ≤ 15 ∧
    (elapse 0 { askedFor 0 (station .linked) with epi := { Epi.reset with state := .claimWait } }).epi.state = .claimWait ∧
    (let measured := fun (n : Nat) => elapse 0 { askedFor 0 (station .linked) with
      ins := { Ins.reset with busRecord := some ⟨41, 3, 599, 7200, clock (station .linked) - n⟩ } }
    (elapse 0 (askedFor 0 (station .linked))).ins.busRecord = none ∧ (measured 60).cfg.epochInterval = 30 ∧
      ¬ ((clock (station .linked) - 60) + 2 * 30 < clock (measured 60)) ∧
      (clock (station .linked) - 61) + 2 * 30 < clock (measured 61)) := by
  decide +kernel

/-- A session with no sample in its interval; one with samples, their units above what a counter's top allows. -/
theorem witness_CloseSessionAnswers : RequestReady [] (elapse 0 (askedFor 0 (station .session))) ∧
    (elapse 0 (askedFor 0 (station .session))).stc.op = .session ∧
    (elapse 0 (askedFor 0 (station .session))).mtr.interval.count = 0 ∧
    (∃ o, (elapse 0 (askedFor 0 (station .session))).ses.openRecord = some o) ∧
    (let s := elapse 0 { interval239 with ses := { interval239.ses with openRecord := interval239.ses.openRecord.map (fun o =>
        { o with counters := { o.counters with peakCharging := 4294967295 } }) } }
    s.mtr.interval.count ≠ 0 ∧ s.mtr.interval.estimated = false ∧ s.stc.op = .session ∧
      ∃ o, s.ses.openRecord = some o ∧ 4294967295 - o.counters.charging s.mtr.interval.band < s.mtr.interval.chargeAcc / 14400) :=
  ⟨witness_ready [] .session, rfl, rfl, ⟨_, rfl⟩, by decide, rfl, rfl, _, rfl, by decide +kernel⟩

theorem witness_MeasureAndCalibrateTaken : RequestReady [] (elapse 0 (askedFor 0 (station .session))) ∧
    (elapse 0 (askedFor 0 (station .session))).stc.op = .session ∧
    (elapse 0 (askedFor 0 (station .session))).ins.epochState = .idle ∧ (elapse 0 (askedFor 0 leaking)).stc.op = .session ∧
    (elapse 0 (askedFor 0 leaking)).ins.epochState ≠ .idle ∧ (elapse 0 (askedFor 0 (station .linked))).stc.op = .linked :=
  ⟨witness_ready [] .session, by decide, by decide, by decide, by decide, by decide⟩

/-- HALTED with the input clear and asserted; outside HALTED a latched episode and one that is not. -/
theorem witness_ClearFaultAnswers : (elapse 0 (askedFor 0 (station .halted))).stc.op = .halted ∧
    (elapse 0 (askedFor 0 (station .halted))).shu.faultInput = false ∧
    (elapse 0 (askedFor 0 { station .halted with shu := { Shu.reset with faultInput := true } })).shu.faultInput = true ∧
    (elapse 0 (askedFor 0 (station .ready))).stc.op ≠ .halted ∧ (elapse 0 (askedFor 0 (station .ready))).stc.op ≠ .start ∧
    (elapse 0 (askedFor 0 { station .linked with epi := { Epi.reset with state := .busFault } })).epi.state = .busFault ∧
    (elapse 0 (askedFor 0 (waited []))).epi.state = .claimWait := by
  decide

/-- BUSY shown and no session; and a session. -/
theorem witness_SoftResetTaken :
    (let s := { station .linked with vlk := { Vlk.reset with txn := some { status := 0x80, clocked := 3 } } }
    (elapse 0 s).vlk.txn = some { status := 0x80, clocked := 3 } ∧ (elapse 0 s).vlk.slot = none ∧ (elapse 0 s).stc.op ≠ .session) ∧
    (elapse 0 (askedFor 0 (station .session))).stc.op = .session ∧
    ∃ o, (elapse 0 (askedFor 0 (station .session))).ses.openRecord = some o := ⟨by decide, by decide, _, rfl⟩

theorem witness_PowerOnReset : (elapse 0 (station .linked)).ses.snapshot = none ∧
    ∃ p, (elapse 0 (station .session)).ses.snapshot = some p := ⟨rfl, _, rfl⟩

/-- The own code at the start of the framer's time, in a state that takes frames, and in READY just before it stopped; a station
that is sending. -/
theorem witness_OwnCodeHalts : (∃ a, (elapse 0 (failing 2)).dli.attempt = some a) ∧ (let s := elapse 0 { station .session with dli := { Dli.reset with framerFrom := 1000000 } }
    headerOk s.cfg.depotCode 7 9 = true ∧ framerTook s 1000000 = true ∧ 7 = s.cfg.stationCode ∧ s.stc.op.takesFrames = true ∧
      s.dli.attempt = none) ∧
    (let s := elapse 0 { station .ready with dli := { Dli.reset with framerUntil := some 1000001 } }
    headerOk s.cfg.depotCode 7 9 = true ∧ framerTook s 1000000 = true ∧ 7 = s.cfg.stationCode ∧ s.stc.op = .ready ∧ s.dli.attempt = none) ∧
    (elapse 0 (station .halted)).stc.op = .halted := ⟨⟨_, rfl⟩, by decide⟩

theorem reaches_of (h : Header) (s : State) (ok : (s.dli.attempt.isNone && headerOk s.cfg.depotCode h.code h.depot && framerTook s h.begun &&
    decide (h.code ≠ s.cfg.stationCode) && s.stc.op.takesFrames) = true) : Reaches h s := by
  simp only [Bool.and_eq_true, decide_eq_true_eq, Option.isNone_iff_eq_none] at ok
  exact ⟨ok.1.1.1.1, ok.1.1.1.2, ok.1.1.2, ok.1.2, ok.2⟩

/-- Out of range (a weight of 16); an entry; no entry and 23 others; 24 others with the timer stopped and running. -/
theorem witness_AnnounceArrivalTaken : Reaches (header 3) (elapse 0 (station .session)) ∧
    Reaches (header 63) (elapse 0 (station .listening)) ∧ Reaches (header 58) (elapse 0 fullTable) ∧
    shareInRange (shared 0 16 0 0) = false ∧ shareInRange (shared 3000 15 3000 3000) = true ∧
    findEntry 3 (elapse 0 (station .session)).ptb.entries = some (peer 3) ∧
    (let s := elapse 0 { fullTable with ptb := { fullTable.ptb with entries := fullTable.ptb.entries.drop 1 } }
    findEntry 58 s.ptb.entries = none ∧ s.ptb.entries.length = 23) ∧
    findEntry 58 (elapse 0 fullTable).ptb.entries = none ∧ (elapse 0 fullTable).ptb.entries.length = 24 ∧
    (elapse 0 fullTable).ptb.unlisted = none ∧
    (elapse 0 { fullTable with ptb := { fullTable.ptb with unlisted := some 2000000 } }).ptb.unlisted.isSome = true :=
  ⟨reaches_of _ _ (by decide +kernel), reaches_of _ _ (by decide +kernel), reaches_of _ _ (by decide +kernel), by decide,
    by decide, by decide +kernel, by decide +kernel, by decide +kernel, by decide +kernel, by decide +kernel, by decide +kernel⟩

/-- A session in this epoch state, the epoch 57 of this injector. -/
def atEpoch (e : EpochState) (injector : Nat) (resend : Bool) : State :=
  { leaking with ins := { leaking.ins with epochState := e, injector := injector, resend := resend } }

/-- A session whose entry 41 has gone STALE, with this feeder limit heard and the own one of 6000. -/
def dozing (feeder : Nat) : State :=
  { station .session with ptb := { (station .session).ptb with
    entries := [{ peer 41 with freshness := .stale, share := { (peer 41).share with feederLimit := feeder } }] } }

/-- T_half at its bounds and beyond; a STALE sender and a FRESH one; each epoch state, with codes on each side; the injector's own EPOCH
again in the fifth cycle and in the sixth. -/
theorem witness_EpochArrivalTaken : Reaches (header 3) (elapse 0 (atEpoch .idle 3 false)) ∧
    Reaches (header 12) (elapse 0 (atEpoch .injecting 7 false)) ∧ 1199 < 1200 ∧ 6000 < 6001 ∧ 1200 ≤ 1200 ∧ 6000 ≤ 6000 ∧
    wasStale 3 (elapse 0 (station .session)).ptb.entries = false ∧
    wasStale 41 (elapse 0 { station .session with ptb := { (station .session).ptb with
      entries := [{ peer 41 with freshness := .stale }] } }).ptb.entries = true ∧
    (elapse 0 (station .linked)).stc.op ≠ .session ∧ (elapse 0 (atEpoch .idle 3 false)).stc.op = .session ∧
    (elapse 0 (atEpoch .idle 3 false)).ins.epochState = .idle ∧ (elapse 0 (atEpoch .pending 7 false)).ins.epochState = .pending ∧
    ((elapse 0 (atEpoch .injecting 7 false)).ins.epochState = .injecting ∧ (header 6).code < settings7.stationCode ∧
      settings7.stationCode < (header 8).code ∧ (elapse 0 (atEpoch .injecting 7 false)).ins.resend = false) ∧
    ((elapse 0 (atEpoch .observing 12 false)).ins.epochState = .observing ∧ (header 11).code < 12 ∧ (header 12).code = 12 ∧
      56 ≠ (elapse 0 (atEpoch .observing 12 false)).ins.epochNumber ∧ 57 = (elapse 0 (atEpoch .observing 12 false)).ins.epochNumber ∧
      12 < (header 13).code ∧ (elapse 0 { leaking with ins := { leaking.ins with cycleCount := 5 } }).ins.cycleCount < 6 ∧
      6 ≤ (elapse 0 { leaking with ins := { leaking.ins with cycleCount := 6 } }).ins.cycleCount) ∧
    Reaches (header 41) (elapse 0 (dozing 6000)) ∧ wasStale 41 (elapse 0 (dozing 6000)).ptb.entries = true :=
  ⟨reaches_of _ _ (by decide +kernel), reaches_of _ _ (by decide +kernel), by decide, by decide, by decide, by decide,
    by decide +kernel, by decide +kernel, by decide +kernel, by decide +kernel, by decide +kernel, by decide +kernel,
    by decide +kernel, by decide +kernel, reaches_of _ _ (by decide +kernel), by decide +kernel⟩

/-- The injector's EPOCH heard again while its window is open: the held estimate is cleared and the window closed, the next cycle
counts the fourth, and a sixth cut short leaves the track UNSETTLED (R98, R93). -/
theorem test_epoch_again : let s := fun (n : Nat) => { leaking with
      ins := { leaking.ins with branchTrack := .held 55, cycleCount := n }, htr := { leaking.htr with window := true } }
    let t := fun (n : Nat) => after (.epochArrival 0 (header 3) 57 1800) (s n);
    (t 3).ins.branchTrack = .absent ∧ (t 3).ins.cycleCount = 4 ∧ (t 3).htr.window = false ∧
      (t 6).ins.branchTrack = .unsettled ∧ (t 6).ins.cycleCount = 6 ∧ (t 6).htr.window = false := by decide +kernel

/-- An episode in this state with these claimants, at the observed epoch 57 of injector 3 whose branch estimate is `rb`. -/
def inEpisode (e : EpisodeState) (cs : List Claimant) (rb : Nat) : State :=
  { leaking with
    ins := { leaking.ins with branchTrack := .accepted rb }
    epi := { state := e, claimants := cs, window := if e = .claimWait then some 2500000 else none, onset := none } }

/-- A bus estimate at or above the alarm threshold of 7200 cV, 72 kilohm. -/
abbrev s72 (r : Nat) : Prop := 100 * 7200 / 10000 ≤ r

/-- Findings out of range and at their tops; an epoch it ends; the bands at 72 and 360 and one below each; a branch of 71, which claims,
and of 72, which does not; the set's members of the epoch none, one and two; each state, and the own claim alone and with another; a
STALE sender that begins no mismatch onset, and one that does. -/
theorem witness_FindingArrivalTaken : Reaches (header 3) (elapse 0 leaking) ∧ Reaches (header 3) (elapse 0 (station .linked)) ∧
    (1 < 2 ∧ 50000 < 50001 ∧ 10000 < 10001) ∧ (1 ≤ 1 ∧ 50000 ≤ 50000 ∧ 10000 ≤ 10000) ∧
    (let s := elapse 0 leaking
    s.ins.epochState = .observing ∧ s.ins.epochNumber = 57 ∧ s.ins.injector = (header 3).code ∧ s.stc.op = .session ∧
      s.epi.state = .normal ∧ s.ins.setBranchRecord.branchFor 57 3 = some (some 55)) ∧
    (s72 360 ∧ ¬ s72 71 ∧ 500 * 7200 / 10000 ≤ 360 ∧ s72 72 ∧ s72 359 ∧ 359 < 500 * 7200 / 10000) ∧
    ((elapse 0 (inEpisode .normal [] 71)).ins.setBranchRecord.branchFor 57 3 = some (some 71) ∧ ¬ s72 71 ∧ s72 72) ∧
    (let n := fun (s : State) => (s.epi.claimants.filter (fun c => decide (c.epoch = 57))).length
    n (elapse 0 (station .linked)) = 0 ∧ n (elapse 0 (inEpisode .normal [⟨12, 57, 60, false⟩, ⟨3, 56, 60, false⟩] 72)) = 1 ∧
      n (elapse 0 (inEpisode .warning [⟨12, 57, 60, false⟩, ⟨3, 57, 60, false⟩] 72)) = 2) ∧
    (let es : List EpisodeState := [.warning, .claimWait, .attributed, .busFault, .localFault, .doubleFault]
    es.map (fun x => (elapse 0 (inEpisode x [] 72)).epi.state) = es) ∧
    (let own : Claimant := { code := 7, epoch := 57, rb := 71, departed := false }
    (joinClaimant own []).length = 1 ∧ (joinClaimant own [⟨12, 57, 60, false⟩]).length ≠ 1) ∧
    (elapse 0 (inEpisode .attributed [⟨12, 57, 60, true⟩] 72)).epi.claimants = [⟨12, 57, 60, true⟩] ∧
    (elapse 0 (inEpisode .attributed [⟨12, 57, 60, false⟩] 72)).epi.claimants = [⟨12, 57, 60, false⟩] ∧
    ContactorSafe (elapse 0 leaking) ∧ MarksAgree (elapse 0 leaking) ∧
    Reaches (header 41) (elapse 0 (dozing 6000)) ∧ Reaches (header 41) (elapse 0 (dozing 5999)) ∧
    (let es := fun (s : State) => refreshedEntries 41 s.ptb.entries
    wasStale 41 (elapse 0 (dozing 6000)).ptb.entries = true ∧ ¬ MismatchBegins (elapse 0 (dozing 6000)) (es (elapse 0 (dozing 6000))) ∧
      wasStale 41 (elapse 0 (dozing 5999)).ptb.entries = true ∧ MismatchBegins (elapse 0 (dozing 5999)) (es (elapse 0 (dozing 5999)))) :=
  ⟨reaches_of _ _ (by decide +kernel), reaches_of _ _ (by decide +kernel), by decide, by decide, by decide +kernel, by decide,
    by decide +kernel, by decide +kernel, by decide +kernel, by decide +kernel, rfl, rfl,
    by unfold ContactorSafe; decide +kernel, by unfold MarksAgree; decide +kernel, reaches_of _ _ (by decide +kernel),
    reaches_of _ _ (by decide +kernel), by decide +kernel⟩

/-- 50001 and 50000; a member that claims again; a second member in CLAIM_WAIT, and a first in ATTRIBUTED and in BUS_FAULT. -/
theorem witness_ClaimArrivalTaken : Reaches (header 12) (elapse 0 (waited [⟨12, 57, 55, false⟩])) ∧ 50000 < 50001 ∧ 50000 ≤ 50000 ∧
    isMember 12 (elapse 0 (waited [⟨12, 57, 55, false⟩])).epi.claimants = true ∧
    (let s := elapse 0 (waited [⟨3, 57, 60, false⟩])
    isMember 12 s.epi.claimants = false ∧ s.epi.state = .claimWait ∧
      2 ≤ (joinClaimant ⟨12, 57, 55, false⟩ s.epi.claimants).length) ∧
    (let s := elapse 0 { station .session with epi := { Epi.reset with state := .attributed } }
    isMember 12 s.epi.claimants = false ∧ s.epi.state = .attributed) ∧
    (elapse 0 { station .session with epi := { Epi.reset with state := .busFault } }).epi.state = .busFault ∧
    Reaches (header 41) (elapse 0 (dozing 6000)) ∧ wasStale 41 (elapse 0 (dozing 6000)).ptb.entries = true :=
  ⟨reaches_of _ _ (by decide +kernel), by decide, by decide, by decide +kernel, by decide +kernel, by decide +kernel, by decide +kernel,
    reaches_of _ _ (by decide +kernel), by decide +kernel⟩

theorem witness_LeaveArrivalTaken : Reaches (header 3) (elapse 0 (station .session)) ∧
    findEntry 3 (elapse 0 (station .session)).ptb.entries = some (peer 3) ∧ Reaches (header 63) (elapse 0 (station .session)) ∧
    findEntry 63 (elapse 0 (station .session)).ptb.entries = none :=
  ⟨reaches_of _ _ (by decide +kernel), by decide +kernel, reaches_of _ _ (by decide +kernel), by decide +kernel⟩

/-- No frame, a whole one of another depot, and a sound one, with and without an attempt; a CLAIM ahead of a LEAVE at the very end of both gaps, and one microsecond
before each; a backoff run out. -/
theorem witness_LineTimersTaken : readFrame (elapse 0 (station .linked)).cfg.depotCode [false, true] = none ∧
    beyondFrame [false, true] = none ∧ readFrame (elapse 0 (station .linked)).cfg.depotCode (Frame.mk 12 8 .leave).lineBits = none ∧
    beyondFrame (Frame.mk 12 8 .leave).lineBits = some [] ∧
    (elapse 0 (station .linked)).dli.attempt = none ∧ (∃ a, (elapse 0 (failing 2)).dli.attempt = some a) ∧
    readFrame (elapse 0 (station .linked)).cfg.depotCode (Frame.mk 12 9 .leave).lineBits = some (Frame.mk 12 9 .leave) ∧
    (let s := elapse 0 { claiming with dli := { claiming.dli with gapFrom := 1000000 } }
    s.dli.attempt = none ∧ s.dli.backoff = none ∧ s.dli.gapFrom ≤ s.now ∧ 999808 + 192 ≤ s.now ∧
      s.dli.queue.get .claim = some { content := .claim 57 55, failed := 0 } ∧ sends s.stc.op .claim = true ∧
      (List.all [.announce, .epoch, .finding, .claim, .leave] (fun j => !(s.dli.queue.get j).isSome || !sends s.stc.op j ||
        decide (priorityOrder.idxOf .claim ≤ priorityOrder.idxOf j))) = true) ∧
    (elapse 0 claiming).now < 999809 + 192 ∧
    (let s := elapse 0 { claiming with dli := { claiming.dli with gapFrom := 1000001 } }
    s.now < s.dli.gapFrom) ∧
    (elapse 0 backingOff).dli.backoff = some 1000000 ∧ 1000000 ≤ (elapse 0 backingOff).now :=
  ⟨by decide +kernel, by decide +kernel, by decide +kernel, by decide +kernel, rfl, ⟨_, rfl⟩, by decide +kernel, by decide +kernel, by decide,
    by decide, rfl, by decide⟩

/-- An attempt of each kind whose last bit ends now; a raise carried exactly, and one not carried; the states of the own epoch;
HALTED with LEAVE queued and with neither. -/
theorem witness_FramesSentTaken :
    (let s := elapse 0 (sending .session .finding (.finding 42 0 599 7200) (.finding 42 0 599 7200))
    ∃ a, s.dli.attempt = some a ∧ a.ends ≤ s.now ∧ a.kind = .finding) ∧
    (let s := elapse 0 { sending .session .announce .none (.announce (shared 450 6 300 450)) with
        shu := { (station .session).shu with intent := 450, raisePending := true } }
    ∃ a f, s.dli.attempt = some a ∧ a.ends ≤ s.now ∧ a.kind = .announce ∧ a.frame.payload = .announce f ∧
      s.shu.raisePending = true ∧ s.shu.intent ≤ f.intent ∧ f.intent < 451) ∧
    (let s := sending .session .epoch (.epoch 57 1800) (.epoch 57 1800)
    ∃ a, (elapse 0 s).dli.attempt = some a ∧ a.kind = .epoch ∧
      (elapse 0 { s with ins := (atEpoch .pending 7 false).ins }).ins.epochState = .pending ∧
      (elapse 0 { s with ins := { (atEpoch .injecting 7 true).ins with cycleCount := 5 } }).ins.epochState = .injecting ∧
      (elapse 0 { s with ins := { (atEpoch .injecting 7 true).ins with cycleCount := 5 } }).ins.resend = true ∧
      (elapse 0 { s with ins := { (atEpoch .injecting 7 true).ins with cycleCount := 5 } }).ins.cycleCount < 6 ∧
      (elapse 0 s).ins.epochState = .idle ∧
      (elapse 0 { s with ins := (atEpoch .observing 3 false).ins }).ins.epochState = .observing) ∧
    (let s := elapse 0 { sending .session .epoch (.epoch 57 1800) (.epoch 57 1800) with
      ins := { (atEpoch .injecting 7 true).ins with cycleCount := 6 } }
    s.stc.op = .session ∧ s.ins.epochState = .injecting ∧ s.ins.resend = true ∧ 6 ≤ s.ins.cycleCount ∧
      s.cfg.policies.insUnsettled = false) ∧
    (elapse 0 (atEpoch .injecting 7 false)).ins.resend = false ∧
    (let s := elapse 0 (sending .halted .claim (.claim 57 55) (.claim 57 55))
    ∃ a, s.dli.attempt = some a ∧ a.kind = .claim ∧ a.refreshed = false ∧ s.stc.op = .halted ∧
      (s.dli.queue.set a.kind none).claim = none ∧ s.dli.queue.leave = none) ∧
    (elapse 0 claiming).dli.queue.leave ≠ none ∧ (elapse 0 (station .linked)).stc.op ≠ .halted :=
  ⟨⟨_, rfl, by decide, rfl⟩, ⟨_, _, rfl, by decide, rfl, rfl, rfl, by decide, by decide⟩,
    ⟨_, rfl, rfl, rfl, rfl, rfl, by decide, rfl, rfl⟩, by decide, rfl, ⟨_, rfl, rfl, rfl, rfl, rfl, rfl⟩, by decide, by decide⟩

/-- An ANNOUNCE, an entry asked for again, a second and a third failure behind it; an EPOCH's fourth in each epoch state, queued again
in INJECTING or not; a CLAIM's fourth in HALTED alone and with LEAVE queued. -/
theorem witness_AttemptFailedTaken :
    (let s := elapse 0 (sending .session .announce .none (.announce (shared 0 1 0 0)))
    ∃ a, s.dli.attempt = some a ∧ a.kind = .announce ∧ ∀ e, s.dli.queue.announce = some e → e.failed = 0) ∧
    (let s := elapse 0 (failing 2)
    ∃ a e, s.dli.attempt = some a ∧ a.kind ≠ .announce ∧ s.dli.queue.get a.kind = some e ∧ a.refreshed = false ∧ e.failed < 3) ∧
    (let s := elapse 0 (failing 3)
    ∃ a e, s.dli.attempt = some a ∧ s.dli.queue.get a.kind = some e ∧ a.refreshed = false ∧ 3 ≤ e.failed ∧ a.kind = .claim ∧
      s.stc.op = .halted ∧ s.dli.queue.leave = none ∧ s.shu.limit = 0 ∧ s.shu.intent = 0 ∧ s.shu.hold = .steady) ∧
    (let s := elapse 0 { failing 3 with dli := { (failing 3).dli with queue := { (failing 3).dli.queue with
        leave := some { content := .none, failed := 0 } } } }
    s.dli.queue.leave ≠ none) ∧
    (let s := elapse 0 { failing 3 with dli := { (failing 3).dli with
        attempt := some { kind := .claim, frame := ⟨7, 9, .claim 57 55⟩, ends := 1000000, refreshed := true } } }
    ∃ a e, s.dli.attempt = some a ∧ s.dli.queue.get a.kind = some e ∧ a.refreshed = true) ∧
    (let s := sending .session .epoch (.epoch 57 1800) (.epoch 57 1800)
    let t := { s with dli := { s.dli with queue := s.dli.queue.set .epoch (some { content := .epoch 57 1800, failed := 3 }) } }
    ∃ a e, (elapse 0 t).dli.attempt = some a ∧ a.kind = .epoch ∧ (elapse 0 t).dli.queue.get .epoch = some e ∧ 3 ≤ e.failed ∧
      (elapse 0 t).ins.epochState = .idle ∧
      (elapse 0 { t with ins := (atEpoch .pending 7 false).ins }).ins.epochState = .pending ∧
      (let u := elapse 0 { t with ins := (atEpoch .injecting 7 true).ins }
      u.ins.epochState = .injecting ∧ u.ins.resend = true) ∧
      (elapse 0 { t with ins := (atEpoch .injecting 7 false).ins }).ins.resend = false ∧
      (elapse 0 { t with ins := (atEpoch .observing 3 false).ins }).ins.epochState = .observing) :=
  ⟨⟨_, rfl, rfl, fun e h => by cases h; rfl⟩, ⟨_, _, rfl, by decide, rfl, rfl, by decide⟩,
    ⟨_, _, rfl, rfl, rfl, by decide, rfl, rfl, rfl, rfl, rfl, rfl⟩, by decide, ⟨_, _, rfl, rfl, rfl⟩,
    ⟨_, _, rfl, rfl, rfl, by decide, rfl, rfl, ⟨rfl, rfl⟩, rfl, rfl⟩⟩

theorem witness_AgeingTaken : (let s := elapse 0 (silent .session 1500)
    ∃ e, findEntry 41 s.ptb.entries = some e ∧ e.freshness = .fresh ∧ 3 * s.cfg.ta * 1000 ≤ e.silence) ∧
    (let s := elapse 0 (silent .session 3000)
    ∃ e, findEntry 41 s.ptb.entries = some e ∧ 6 * s.cfg.ta * 1000 ≤ e.silence) ∧
    (let s := elapse 0 { fullTable with ptb := { fullTable.ptb with unlisted := some 1000000 } }
    s.ptb.unlisted = some 1000000 ∧ 1000000 ≤ s.now) :=
  ⟨⟨_, rfl, rfl, by decide⟩, ⟨_, rfl, by decide⟩, rfl, by decide⟩

/-- A hold that completes and one that waits for entry 12; the two timers run out. -/
theorem witness_ShareTimersTaken : (let s := elapse 0 holding
    s.shu.holdTimer = some 1000000 ∧ 1000000 ≤ s.now ∧ s.shu.hold = .holding ∧ s.shu.raisePending = false ∧
      s.shu.holdStart = some 0 ∧ 0 + 2 * s.cfg.ta * 1000 ≤ s.now ∧ ∀ e ∈ s.ptb.entries, e.freshness = .stale ∨ e.heard = true) ∧
    (let s := elapse 0 { holding with ptb := { holding.ptb with entries := [{ peer 12 with heard := false }] } }
    s.shu.holdTimer = some 1000000 ∧ ¬ ∀ e ∈ s.ptb.entries, e.freshness = .stale ∨ e.heard = true) ∧
    (let s := elapse 0 { station .linked with dli := { Dli.reset with announce := some 1000000 } }
    s.dli.announce = some 1000000 ∧ 1000000 ≤ s.now) ∧
    (let s := elapse 0 { station .listening with stc := { (station .listening).stc with listenWindow := some 1000000 } }
    s.stc.op = .listening ∧ s.stc.listenWindow = some 1000000 ∧ 1000000 ≤ s.now) := by decide +kernel

/-- A zone that fits exactly and one ampere too many; the window that keeps it off; the dose at its limit; a zone whose turn it is, at
the start of a cycle, and one converted in this cycle; readings at the ends of the scale and at T_cut; a zone OUT; the cycle stopped. -/
theorem witness_HeaterEventsTaken : (let s := elapse 0 { warming with dmu := { warming.dmu with heaterAllow := 135 } }
    s.htr.stagger = some 1000000 ∧ 1000000 ≤ s.now ∧ firstWaiting s.cfg.zoneOrder s.htr.zones = some .z1 ∧ s.stc.op = .session ∧
      s.htr.window = false ∧ ratedSum Zone.heats s.htr.zones s.cfg.ratings + s.cfg.ratings.get .z1 ≤ s.dmu.heaterAllow) ∧
    (let s := elapse 0 { warming with dmu := { warming.dmu with heaterAllow := 134 } }
    s.htr.stagger = some 1000000 ∧ ¬ ratedSum Zone.heats s.htr.zones s.cfg.ratings + s.cfg.ratings.get .z1 ≤ s.dmu.heaterAllow) ∧
    (elapse 0 { warming with htr := { warming.htr with idle := some 1000000 } }).htr.idle = some 1000000 ∧
    (let s := elapse 0 { warming with htr := { warming.htr with zones := warming.htr.zones.set .z3 ⟨.heating, some 12, 3600000000, none⟩ } }
    (s.htr.zones.get .z3).state = .heating ∧ s.cfg.doseLimit * 1000000 ≤ (s.htr.zones.get .z3).heatTime) ∧
    (let s := elapse 0 { warming with htr := { warming.htr with converted := ⟨0, 0, 1, 2⟩ } }
    s.htr.cycleStart = some 0 ∧ s.htr.converted.get .z3 ≤ (s.now - 0) / 1000000 ∧
      ¬ s.htr.converted.get .z4 ≤ (s.now - 0) / 1000000) ∧
    ((-500 : Int) ≤ -500 ∧ (1000 : Int) ≤ 1000 ∧ (elapse 0 warming).cfg.tCut < 451 ∧ 450 ≤ (elapse 0 warming).cfg.tCut ∧
      ((elapse 0 warming).htr.zones.get .z3).state ≠ .out) ∧
    ((elapse 0 { warming with htr := { warming.htr with zones := warming.htr.zones.set .z3 ⟨.out, none, 0, some .overtemp⟩ } }).htr.zones.get
      .z3).state = .out ∧
    (elapse 0 (station .ready)).htr.cycleStart = none ∧
    (let s := elapse 0 { warming with htr := { warming.htr with stagger := none } }
    let asking := s.htr.zones.set .z1 { s.htr.zones.get .z1 with state := .waiting }
    let q := after (.temperatureConversion 0 .z1 (.reading 99)) { warming with htr := { warming.htr with stagger := none } }
    (s.htr.zones.get .z1).state ≠ .heating ∧ (99 : Int) < s.cfg.tTarget ∧ s.stc.op = .session ∧ s.htr.window = false ∧
      s.htr.stagger = none ∧ firstWaiting s.cfg.zoneOrder asking = some .z1 ∧ firstWaiting s.cfg.zoneOrder asking ≠ some .z2 ∧
      ratedSum Zone.heats s.htr.zones s.cfg.ratings + s.cfg.ratings.get .z1 ≤ q.dmu.heaterAllow ∧
      (s.htr.zones.get .z3).state = .heating ∧ (119 : Int) < s.cfg.tTarget + s.cfg.hysteresis) ∧
    (elapse 0 warming).htr.stagger ≠ none ∧
    (let s := elapse 0 lastZone
    s.cfg.policies.heaterAllOut = false ∧ s.stc.op.takesFrames = true) ∧
    (let q := after (.doseLimit 0 .z3) lastZone
    lastZone.htr.zones.anyHeating = true ∧ q.htr.zones.anyHeating = false ∧ q.stc.op = .session ∧ q.htr.contactor = true) := by
  decide +kernel

theorem witness_all_out : ∀ w, w ≠ .z3 → ((elapse 0 lastZone).htr.zones.get w).state = .out := by
  intro w
  cases w <;> decide

/-- The epoch timer in IDLE and in OBSERVING; the loss deadline; the claim window with no claimant, under both policies, and with one. -/
theorem witness_InsulationTimersTaken : (let s := elapse 0 { station .session with ins := { Ins.reset with epochTimer := some 1000000 } }
    s.ins.epochTimer = some 1000000 ∧ 1000000 ≤ s.now ∧ s.stc.op = .session ∧ s.ins.epochState = .idle) ∧
    (let s := elapse 0 { leaking with ins := { leaking.ins with epochTimer := some 1000000, lossDeadline := some 1000000 } }
    s.ins.epochTimer = some 1000000 ∧ s.ins.epochState ≠ .idle ∧ s.ins.epochState = .observing ∧
      s.ins.lossDeadline = some 1000000 ∧ 1000000 ≤ s.now) ∧
    (let s := elapse 0 (waited [])
    s.epi.state = .claimWait ∧ s.epi.window = some 1000000 ∧ s.epi.claimants = [] ∧
      s.epi.onset = some ⟨57, 3, 50, 7200, 360, 72⟩ ∧ s.cfg.policies.insBus = false ∧ s.stc.op.takesFrames = true) ∧
    (elapse 0 { waited [] with cfg := { settings7 with policies := { Policies.default with insBus := true } } }).cfg.policies.insBus = true ∧
    (elapse 0 (waited [⟨12, 57, 55, true⟩])).epi.claimants = [⟨12, 57, 55, true⟩] := by decide +kernel

/-- The first point at 2/3 of the half, the second at 5/6, the end of a positive half; the end of a cycle that is accepted, one that is
held with 5 cycles and one with 6; an observer's fifth and sixth, sampled, and one whose track is final. -/
theorem witness_CycleSamplesTaken :
    (let s := elapse 0 { lastHalf with now := 10200000, ins := { lastHalf.ins with points := 0 } }
    s.ins.halfStart = some 9000000 ∧ s.ins.points = 0 ∧ 9000000 + 2 * s.ins.tHalf / 3 * 1000 ≤ s.now) ∧
    (let s := elapse 0 { lastHalf with now := 10500000, ins := { lastHalf.ins with points := 1 } }
    s.ins.halfStart = some 9000000 ∧ s.ins.points = 1 ∧ 9000000 + 5 * s.ins.tHalf / 6 * 1000 ≤ s.now) ∧
    (let s := elapse 0 { lastHalf with ins := { lastHalf.ins with half := .positive } }
    s.ins.points = 2 ∧ 9000000 + s.ins.tHalf * 1000 ≤ s.now ∧ s.ins.half = .positive) ∧
    (let s := elapse 0 lastHalf
    let j : Ins := { s.ins with samplesU := s.ins.samplesU ++ [-28740], samplesI := s.ins.samplesI ++ [0], points := s.ins.points + 1 }
    s.stc.op = .session ∧ s.ins.points = 2 ∧ 9000000 + s.ins.tHalf * 1000 ≤ s.now ∧ s.ins.half = .negative ∧
      s.ins.epochState = .injecting ∧ trackStep s.ins.busTrack (j.cycleBus s.trm.inUse) = .accepted 599 ∧
      trackStep none (j.cycleBus s.trm.inUse) = .held (some 599)) ∧
    (elapse 0 { lastHalf with ins := { lastHalf.ins with busTrack := none, cycleCount := 5 } }).ins.cycleCount < 6 ∧
    6 ≤ (elapse 0 { lastHalf with ins := { lastHalf.ins with busTrack := none, cycleCount := 6 } }).ins.cycleCount ∧
    (let observer := fun (n : Nat) (b : BranchTrack) =>
      (elapse 0 { lastHalf with ins := { lastHalf.ins with
        epochState := .observing, injector := 3, source := .off, busTrack := none, branchTrack := b, cycleCount := n } }).ins
    (observer 5 (.held 50)).epochState = .observing ∧ (observer 5 (.held 50)).cycleCount < 6 ∧ 6 ≤ (observer 6 (.held 50)).cycleCount ∧
      (observer 5 (.held 50)).branchTrack.final = false ∧ (observer 5 (.accepted 50)).branchTrack.final = true) := by
  decide +kernel

/-- The own finding of 599 meets each band, an own branch that claims and one that does not, and both policies of INS_UNSETTLED. -/
theorem witness_OwnFinding :
    (let s := elapse 0 lastHalfLow
    sampledVoltage s = 7200 ∧ 599 < s.cfg.alarm * 7200 / 10000 ∧ s.epi.state = .normal ∧ s.trc.frozen = false ∧
      ownBranch s s.ins.branchTrack = some (some 50) ∧ 50 < s.cfg.alarm * 7200 / 10000 ∧
      ¬ 50000 < s.cfg.alarm * 7200 / 10000) ∧
    (let s := elapse 0 lastHalf
    s.cfg.alarm * 7200 / 10000 ≤ 599 ∧ s.cfg.warn * 7200 / 10000 ≤ 599 ∧ ownBranch s s.ins.branchTrack = some (some 50000) ∧
      s.cfg.policies.insUnsettled = false) ∧
    (let s := elapse 0 { lastHalf with cfg := { settings7 with warn := 2000, policies := { Policies.default with insUnsettled := true } } }
    s.cfg.alarm * 7200 / 10000 ≤ 599 ∧ 599 < s.cfg.warn * 7200 / 10000 ∧ s.cfg.policies.insUnsettled = true) := by
  decide +kernel

/-- A session whose slot is SHORTED, under this policy for METER_CAL. -/
def slotted (stops : Bool) : State :=
  let s := station .session
  { s with cfg := { settings7 with policies := { Policies.default with meterCal := stops } },
           mtr := { s.mtr with cal := .shorted }, vlk := { s.vlk with inProgress := some 9 } }

/-- A sample outside SESSION, one in HALTED that reports the bus lost and one in READY with a slot, and one in SESSION, at the bound, above it with the count at 2, excluded, and waiting, at the last count before
the end; a slot sample at 50 and at -51, in SESSION under both policies, and outside. -/
theorem witness_MeterSamplesTaken : Instr.meterSample ∈ sampleCommands ∧
    (let s := elapse 0 (station .linked)
    s.stc.op ≠ .start ∧ s.mtr.periodEnd = some 1000000 ∧ 1000000 ≤ s.now ∧ s.stc.op ≠ .session ∧ s.mtr.cal ≠ .shorted ∧
      s.mtr.presence = .present ∧ ¬ (7200 : Nat) < s.cfg.busThreshold) ∧
    (let s := elapse 0 { drawing false with mtr := { (drawing false).mtr with interval := { Interval.none with count := 238 } } }
    s.stc.op = .session ∧ s.mtr.cal ≠ .shorted ∧ s.mtr.interval.count < 239 ∧ s.shu.exclusion = 0 ∧
      (4300 : Int) ≤ ((s.shu.limit + s.cfg.tolerance) * 10 : Nat) ∧ (((s.shu.limit + s.cfg.tolerance) * 10 : Nat) : Int) < 4301) ∧
    (elapse 0 { drawing false with shu := { (drawing false).shu with overCount := 2 } }).shu.overCount < 3 ∧
    0 < (elapse 0 { drawing false with shu := { (drawing false).shu with exclusion := 1 } }).shu.exclusion ∧
    (elapse 0 { drawing false with shu := { (drawing false).shu with overWait := true } }).shu.overWait = true ∧
    (let s := elapse 0 (slotted true)
    s.stc.op = .session ∧ s.mtr.cal = .shorted ∧ s.mtr.interval.count < 239 ∧ s.vlk.inProgress = some 9#8 ∧
      (sampleOf s.trm.inUse s.mtr.offset ⟨7200, 50, 0⟩).total = 50 ∧ (sampleOf s.trm.inUse s.mtr.offset ⟨7200, -51, 0⟩).total = -51 ∧
      s.cfg.policies.meterCal = true ∧ s.ses.openRecord.isSome = true) ∧
    (elapse 0 (slotted false)).cfg.policies.meterCal = false ∧
    (let s := elapse 0 { station .linked with mtr := { (station .linked).mtr with cal := .shorted } }
    s.stc.op ≠ .session ∧ s.mtr.cal = .shorted ∧ (sampleOf s.trm.inUse s.mtr.offset ⟨7200, 50, 0⟩).total = 50 ∧
      (sampleOf s.trm.inUse s.mtr.offset ⟨7200, -51, 0⟩).total = -51) ∧
    (let s := elapse 0 { station .halted with mtr := { (station .linked).mtr with run := 3 } }
    s.stc.op = .halted ∧ s.mtr.presence = .present ∧ (1999 : Nat) < s.cfg.busThreshold ∧ 3 ≤ s.mtr.run ∧ s.mtr.cal ≠ .shorted ∧
      s.mtr.periodEnd = some 1000000) ∧
    (let s := elapse 0 { station .ready with mtr := { (station .linked).mtr with cal := .shorted } }
    s.stc.op = .ready ∧ s.mtr.cal = .shorted ∧ s.mtr.periodEnd = some 1000000) :=
  ⟨by simp [sampleCommands], by decide +kernel, by decide +kernel, by decide, by decide, by decide, by decide +kernel, by decide,
    by decide +kernel, by decide, by decide⟩

/-- Sample 240 as a slot sample, METER_CAL of this policy, and the third sample in a row below the threshold behind it. -/
def slot239 (stops : Bool) : State :=
  { interval239 with
    cfg := { settings7 with policies := { Policies.default with meterCal := stops } }
    mtr := { interval239.mtr with cal := .shorted, run := 3 } }

/-- Sample 240 that is a refused slot too, and one that reports the bus lost too: the interval is credited, under the stop policy and
on the loss in the record then closed, once and with no partial interval after it (R118, R123, R126, R127). -/
theorem test_interval_end_and_more : let credited := fun (r : OpenRecord) => (r.counters.peakHeating, r.counters.peakCharging, r.intervalCount)
    (let t := after (.intervalEnd 0 ⟨7200, 51, 0⟩) (slot239 false)
    t.ses.openRecord.map credited = some (89625, 358500, 1) ∧ t.flt.history.map FaultEntry.code = [.meterCal] ∧
      t.stc.op = .session ∧ t.mtr.offset = 12 ∧ t.mtr.lifetime = 449125) ∧
    (let t := after (.intervalEnd 0 ⟨7200, 51, 0⟩) (slot239 true)
    t.ses.log.map (fun k => (credited k.record, k.closing, k.faultCode)) = [((89625, 358500, 1), 449125, some .meterCal)] ∧
      t.stc.op = .halted) ∧
    (let t := after (.intervalEnd 0 ⟨1999, 0, 0⟩) (slot239 true)
    t.ses.log.map (fun k => (credited k.record, k.closing, k.reason)) = [((89625, 358500, 1), 449125, .busLost)] ∧
      t.stc.op = .ready ∧ t.mtr.offset = 12 ∧ t.flt.history = []) := by decide +kernel

/-- Sample 240; the fourth sample over the bound by 1 cA, under both policies; sample 240 as a refused slot, under both policies; the
bus lost with sample 240, with and without an overdraw that waits. -/
theorem witness_IntervalAndOverdrawTaken : Instr.intervalEnd ∈ sampleCommands ∧
    (let s := elapse 0 interval239
    let x := sampleOf s.trm.inUse s.mtr.offset ⟨7200, 3762, 750⟩
    s.stc.op = .session ∧ s.mtr.periodEnd = some 1000000 ∧ 1000000 ≤ s.now ∧ s.ses.openRecord.isSome = true ∧
      s.mtr.cal ≠ .shorted ∧ x.corrected ≤ ((s.shu.limit + s.cfg.tolerance) * 10 : Nat) ∧ s.cfg.busThreshold ≤ x.voltage ∧
      239 ≤ s.mtr.interval.count) ∧
    (let s := elapse 0 (drawing true)
    let x := sampleOf s.trm.inUse s.mtr.offset ⟨7200, 4301, 0⟩
    s.mtr.cal ≠ .shorted ∧ s.shu.exclusion = 0 ∧ (((s.shu.limit + s.cfg.tolerance) * 10 : Nat) : Int) < x.corrected ∧
      s.shu.overWait = false ∧ 3 ≤ s.shu.overCount ∧ s.cfg.policies.overdraw = true) ∧
    (elapse 0 (drawing false)).cfg.policies.overdraw = false ∧ (elapse 0 (drawing false)).mtr.interval.count < 239 ∧
    239 ≤ (elapse 0 { drawing false with
      mtr := { (drawing false).mtr with interval := { Interval.none with count := 239 } } }).mtr.interval.count ∧
    (let s := elapse 0 (slot239 true)
    let x := sampleOf s.trm.inUse s.mtr.offset ⟨2000, 51, 0⟩
    s.mtr.cal = .shorted ∧ ¬ (-50 ≤ x.total ∧ x.total ≤ 50) ∧ s.cfg.policies.meterCal = true ∧ ¬ x.voltage < s.cfg.busThreshold ∧
      239 ≤ s.mtr.interval.count ∧ s.ses.openRecord.isSome = true ∧ s.mtr.presence = .present ∧ 3 ≤ s.mtr.run ∧
      (sampleOf s.trm.inUse s.mtr.offset ⟨1999, 51, 0⟩).voltage < s.cfg.busThreshold) ∧
    (elapse 0 (slot239 false)).cfg.policies.meterCal = false ∧
    (let s := elapse 0 { drawing false with mtr := { (drawing false).mtr with run := 3 } }
    let x := sampleOf s.trm.inUse s.mtr.offset ⟨1999, 4301, 0⟩
    s.mtr.presence = .present ∧ x.voltage < s.cfg.busThreshold ∧ 3 ≤ s.mtr.run ∧ s.cfg.policies.overdraw = false ∧
      (((s.shu.limit + s.cfg.tolerance) * 10 : Nat) : Int) < x.corrected ∧ 3 ≤ s.shu.overCount) :=
  ⟨by simp [sampleCommands], by decide +kernel, by decide +kernel, by decide, by decide, by decide, by decide +kernel, by decide,
    by decide +kernel⟩

/-- The threshold's own voltage for presence, with the fault input clear and asserted, one below it for loss, each the fourth in a row;
with a slot SHORTED, in LINKED with readings of 50 and -51 and in SESSION; and the loss of a period that a session's opening abandoned at
this very moment, and a sample of one that is no loss. -/
theorem witness_BusReportsTaken : Instr.busPresent ∈ sampleCommands ∧
    (let s := elapse 0 (crossing .ready .absent)
    s.mtr.periodEnd = some 1000000 ∧ 1000000 ≤ s.now ∧ s.stc.op = .ready ∧ s.mtr.cal ≠ .shorted ∧ s.mtr.presence = .absent ∧
      s.cfg.busThreshold ≤ (sampleOf s.trm.inUse s.mtr.offset ⟨2000, 0, 0⟩).voltage ∧ 3 ≤ s.mtr.run ∧ s.shu.faultInput = false) ∧
    QuietSafe (elapse 0 (crossing .ready .absent)) ∧
    (let s := elapse 0 { crossing .ready .absent with shu := { Shu.reset with faultInput := true } }
    s.shu.faultInput = true ∧ QuietSafe s) ∧
    (let s := elapse 0 (crossing .session .present)
    s.stc.op.takesFrames = true ∧ s.stc.op = .session ∧ ¬ 3 ≤ s.shu.overCount ∧ s.mtr.cal ≠ .shorted ∧ s.mtr.presence = .present ∧
      (sampleOf s.trm.inUse s.mtr.offset ⟨1999, 0, 0⟩).voltage < s.cfg.busThreshold ∧ 3 ≤ s.mtr.run) ∧
    (let shorted := fun (op : OpState) => elapse 0 { crossing op .present with
      mtr := { (crossing op .present).mtr with cal := .shorted }, vlk := { Vlk.reset with inProgress := some 9 } }
    (shorted .linked).stc.op = .linked ∧ (shorted .linked).mtr.cal = .shorted ∧ (shorted .linked).vlk.inProgress = some 9#8 ∧
      (sampleOf (shorted .linked).trm.inUse (shorted .linked).mtr.offset ⟨1999, 50, 0⟩).total = 50 ∧
      (sampleOf (shorted .linked).trm.inUse (shorted .linked).mtr.offset ⟨1999, -51, 0⟩).total = -51 ∧
      (shorted .session).stc.op = .session ∧ (shorted .session).mtr.cal = .shorted ∧
      (shorted .session).ses.openRecord.isSome = true) ∧
    (let s := elapse 0 { crossing .session .present with
      mtr := { (crossing .session .present).mtr with periodEnd := some 1250000, overtaken := some 1000000 } }
    s.stc.op = .session ∧ s.mtr.periodEnd = some 1250000 ∧ s.now < 1250000 ∧ s.mtr.overtaken = some s.now ∧
      s.ses.openRecord.isSome = true ∧ s.mtr.interval.count = 0 ∧ s.mtr.presence = .present ∧ 3 ≤ s.mtr.run ∧
      (sampleOf s.trm.inUse s.mtr.offset ⟨1999, 0, 0⟩).voltage < s.cfg.busThreshold ∧
      ¬ (sampleOf s.trm.inUse s.mtr.offset ⟨2000, 0, 0⟩).voltage < s.cfg.busThreshold) :=
  ⟨by simp [sampleCommands], by decide +kernel, by unfold QuietSafe; decide +kernel, ⟨rfl, by unfold QuietSafe; decide +kernel⟩,
    by decide +kernel, by decide +kernel, by decide +kernel⟩

theorem witness_ConverterInputTaken : (elapse 0 (station .ready)).stc.op.takesFrames = false ∧
    (elapse 0 (station .session)).shu.faultInput = false ∧ (elapse 0 (station .session)).stc.op.takesFrames = true := by decide

end Sys2Proof.Tests
end

section
/-! PROOF. The split order of R63 (chapter 4): which load the draw limit serves first, and what the rule gives with every zone OUT. -/

namespace Sys2Proof.Proofs
open Sys2Proof.Machine

/-! ## Demand figures with every zone OUT -/

/-- Each zone given by its number is one of the four in the list. -/
theorem forall_mem_list {α : Type} {p : α → Prop} {q : Quad α} (h : ∀ z, p (q.get z)) : ∀ x ∈ q.list, p x := by
  intro x hx
  simp only [Quad.list, List.mem_cons, List.not_mem_nil, or_false] at hx
  rcases hx with rfl | rfl | rfl | rfl
  · exact h .z1
  · exact h .z2
  · exact h .z3
  · exact h .z4

/-- An OUT zone gives T_min no temperature, whatever its last reading (R58). -/
theorem gives_of_out {z : Zone} (h : z.state = .out) : z.gives = none := if_pos h

/-- An OUT zone asks for no heat (R61). -/
theorem asks_of_out {z : Zone} (h : z.state = .out) : z.asks = false := by simp [Zone.asks, h]

/-- The least of temperatures that are all absent is absent. -/
theorem foldr_minTemp_none {ts : List (Option Int)} (h : ∀ t ∈ ts, t = none) : ts.foldr minTemp none = none := by
  induction ts with
  | nil => rfl
  | cons t ts ih =>
    obtain ⟨ht, hts⟩ := List.forall_mem_cons.1 h
    rw [List.foldr_cons, ht, ih hts, minTemp]

/-- With every zone OUT, T_min is absent (R58). -/
theorem tMinOf_allOut {zones : Quad Zone} (h : ∀ z, (zones.get z).state = .out) : tMinOf zones = none :=
  foldr_minTemp_none (List.forall_mem_map.2 (forall_mem_list (p := fun z : Zone => z.gives = none) fun z => gives_of_out (h z)))

/-- Zones none of which is counted add up to nothing. -/
theorem ratedSum_eq_zero {p : Zone → Bool} {zones : Quad Zone} (ratings : Quad Nat) (h : ∀ z, p (zones.get z) = false) :
    ratedSum p zones ratings = 0 := by simp [ratedSum, h]

/-- With every zone OUT, the recomputed T_min is absent (R58). -/
theorem refresh_tMin_allOut {zones : Quad Zone} (h : ∀ z, (zones.get z).state = .out) (cfg : Settings) (d : Dmu) :
    (d.refresh cfg zones).tMin = none := tMinOf_allOut h

/-- With every zone OUT, the recomputed heater demand is 0 (R61). -/
theorem refresh_heaterDemand_allOut {zones : Quad Zone} (h : ∀ z, (zones.get z).state = .out) (cfg : Settings) (d : Dmu) :
    (d.refresh cfg zones).heaterDemand = 0 := ratedSum_eq_zero cfg.ratings fun z => asks_of_out (h z)

/-! ## The split -/

/-- The split takes its order from T_min and T_permit; the order it stood in before plays no part (R63). -/
theorem split_order (tPermit : Int) (limit : Nat) (d : Dmu) : (d.split tPermit limit).order = splitOrderOf tPermit d.tMin := by
  cases h : splitOrderOf tPermit d.tMin <;> simp [Dmu.split, h]

/-- Without a T_min the heater is served first (R63). -/
theorem split_order_of_tMin_none {d : Dmu} (h : d.tMin = none) (tPermit : Int) (limit : Nat) :
    (d.split tPermit limit).order = .heaterFirst := by rw [split_order, h, splitOrderOf]

/-- Served second, the charger receives what it can use of what the heater leaves (R64). -/
theorem split_chargerAllow_of_heaterFirst {tPermit : Int} {d : Dmu} (h : splitOrderOf tPermit d.tMin = .heaterFirst)
    (limit : Nat) : (d.split tPermit limit).chargerAllow = min d.chargerDemand (limit - min d.heaterDemand limit) := by
  simp [Dmu.split, h]

/-- A heater first in the order that asks for nothing leaves the charger the whole draw limit (R64). -/
theorem split_chargerAllow_of_no_heat {d : Dmu} (ht : d.tMin = none) (hh : d.heaterDemand = 0) (tPermit : Int) (limit : Nat) :
    (d.split tPermit limit).chargerAllow = min d.chargerDemand limit := by
  have heaterFirst : splitOrderOf tPermit d.tMin = .heaterFirst := by rw [ht, splitOrderOf]
  rw [split_chargerAllow_of_heaterFirst heaterFirst, hh, Nat.zero_min, Nat.sub_zero]

/-- Settles O24: the order is `splitOrderOf` of T_min (`split_order`), and with every zone OUT the recomputed figures are an absent
T_min and no heater demand, from which the split follows. -/
theorem splitOrder : Obligations.SplitOrder := by
  refine ⟨fun tPermit limit d => ?_, fun cfg zones limit d out => ?_⟩
  · rw [split_order]
    cases d.tMin <;> rfl
  · have ht := refresh_tMin_allOut out cfg d
    have hh := refresh_heaterDemand_allOut out cfg d
    exact ⟨ht, hh, split_order_of_tMin_none ht _ _, split_chargerAllow_of_no_heat ht hh _ _⟩

end Sys2Proof.Proofs
end

section
/-! PROOF. ACK SESSION (R141, chapter 11): what the acknowledgement finds in the session log, and the request's answer. -/

namespace Sys2Proof.Proofs
open Sys2Proof.Machine

/-! ## What the acknowledgement finds, and what it leaves -/

/-- The oldest record is the one named (R141). -/
theorem ackResult_of_oldest {n : Nat} {r : Ses} {c : ClosedRecord} {cs : List ClosedRecord} (h : r.log = c :: cs)
    (hc : c.record.number = n) : r.ackResult n = .done := by simp [Ses.ackResult, h, hc]

/-- A record of the log other than the oldest is named (R141). -/
theorem ackResult_of_later {n : Nat} {r : Ses} {c : ClosedRecord} {cs : List ClosedRecord} (h : r.log = c :: cs)
    (hc : c.record.number ≠ n) (hcs : ∃ x ∈ cs, x.record.number = n) : r.ackResult n = .order := by
  simp [Ses.ackResult, h, hc, hcs]

/-- No record of the log is named, be the log empty or not (R141). -/
theorem ackResult_of_absent {n : Nat} {r : Ses} (h : ∀ x ∈ r.log, x.record.number ≠ n) : r.ackResult n = .noRecord := by
  cases hl : r.log with
  | nil => simp [Ses.ackResult, hl]
  | cons c cs =>
    rw [hl] at h
    obtain ⟨hc, hcs⟩ := List.forall_mem_cons.1 h
    simpa [Ses.ackResult, hl, hc] using hcs

/-- An acknowledgement that is DONE takes the oldest record out of the log (R141). -/
theorem ack_of_done {n : Nat} {r : Ses} (h : r.ackResult n = .done) : r.ack n = { r with log := r.log.drop 1 } := if_pos h

/-- An acknowledgement with any other result removes nothing (R141). -/
theorem ack_of_not_done {n : Nat} {r : Ses} (h : r.ackResult n ≠ .done) : r.ack n = r := if_neg h

/-! ## A served request that leaves the heater alone -/

/-- A ready request that its state serves, of its own length, is its block's work on the state in which the transaction has ended,
where that work leaves the heater and its allowance alone (R171, R173). -/
theorem event_takeRequest_served {t : Nat} {code tag : Byte} {params : List Byte} {serve : State → State} {s : State}
    (ready : RequestReady params (elapse t s)) (hs : served code (elapse t s).stc.op = true)
    (hl : params.length = paramLength code) (htr : ∀ q, (serve q).htr = q.htr)
    (allow : ∀ q, (serve q).dmu.heaterAllow = q.dmu.heaterAllow) :
    event t (takeRequest code tag params serve) s = serve (closeTransaction (elapse t s)) := by
  have work : takeRequest code tag params serve (elapse t s) = serve (closeTransaction (elapse t s)) := by
    rw [takeRequest_ready ready, handOver_served (s := closeTransaction _) hs hl]
  rw [event_quiet (by rw [work, htr, closeTransaction_htr]) (by rw [work, allow, closeTransaction_dmu]), work]

/-! ## The request -/

/-- A field that spans the whole parameter block is the block read as one number. -/
theorem fieldAt_whole {bs : List Byte} {k : Nat} (h : bs.length = k) : fieldAt bs 0 k = ofBytes bs := by
  rw [fieldAt, List.drop_zero, List.take_of_length_le h.le]

/-- ACK SESSION is served in every operating state (R173). -/
theorem served_ackSession (op : OpState) : served codeAckSession op = true := rfl

/-- A ready ACK SESSION acknowledges in the log and puts into the slot the result and the number of records left; nothing else
but the transaction changes (R141, R172). -/
theorem exec_ackSession_ready {t : Nat} {tag : Byte} {params : List Byte} {s : State}
    (ready : RequestReady params (elapse t s)) (hl : params.length = 4) :
    let s0 := elapse t s
    let left := s0.ses.ack (ofBytes params)
    exec (.ackSession t tag params) s = .next { s0 with
      ses := left
      vlk := { s0.vlk with
        txn := none
        slot := some { tag := tag, code := codeAckSession, result := s0.ses.ackResult (ofBytes params), clampMask := 0,
                       data := word left.log.length } } } := by
  have work := event_takeRequest_served (tag := tag) (serve := serveAckSession tag params) ready (served_ackSession _) hl
    (fun _ => rfl) (fun _ => rfl)
  rw [serveAckSession, fieldAt_whole hl] at work
  exact congrArg Host.Outcome.next work

/-- Settles O34: the answer of a ready request is its acknowledgement's result over the log it leaves (`exec_ackSession_ready`);
the three rows are the three results, of which DONE alone changes the log. -/
theorem ackSessionAnswers : Obligations.AckSessionAnswers := by
  intro t tag params s s0 ready hl n answered
  have run := exec_ackSession_ready (tag := tag) ready hl
  refine ⟨fun c cs hlog hc => ?_, fun c cs hlog hc hcs => ?_, fun absent => ?_⟩
  · have isDone : s0.ses.ackResult n = .done := ackResult_of_oldest hlog hc
    have left : s0.ses.ack n = { s0.ses with log := cs } := by rw [ack_of_done isDone, hlog, List.drop_one, List.tail_cons]
    rw [run, isDone, left]
  · have isOrder : s0.ses.ackResult n = .order := ackResult_of_later hlog hc hcs
    have left : s0.ses.ack n = s0.ses := ack_of_not_done (by simp [isOrder])
    rw [run, isOrder, left]
  · have isNoRecord : s0.ses.ackResult n = .noRecord := ackResult_of_absent absent
    have left : s0.ses.ack n = s0.ses := ack_of_not_done (by simp [isNoRecord])
    rw [run, isNoRecord, left]

end Sys2Proof.Proofs
end

section
/-! PROOF. What the work of an event can do to the state, said once: every command acts by the operations that `Worked` lists. An
invariant of the machine is then an induction over them. -/

namespace Sys2Proof.Proofs
open Sys2Proof.Machine

/-! ## The operations of an event -/

/-- What a change of the epoch record keeps (R84, R102): epoch work begins in SESSION alone, and where the source was on in
INJECTING alone it is so after the change. -/
def EpochKept (op : OpState) (i j : Ins) : Prop :=
  (j.epochState ≠ .idle → i.epochState ≠ .idle ∨ op = .session) ∧
    ((i.source ≠ .off → i.epochState = .injecting) → j.source ≠ .off → j.epochState = .injecting)

/-- What a change of the share state other than by a grant or a hold keeps: all but the setpoint, which rises to the charger
allowance at most, the supervision, the peak and the fault input (R46 to R51). -/
def ShareKept (allow : Nat) (u v : Shu) : Prop :=
  v.record = u.record ∧ v.limit = u.limit ∧ v.intent = u.intent ∧ v.hold = u.hold ∧ v.raisePending = u.raisePending ∧
    v.holdStart = u.holdStart ∧ v.holdTimer = u.holdTimer ∧ v.enable = u.enable ∧
    (v.setpoint = u.setpoint ∨ v.setpoint ≤ allow)

/-- The entry with the figures that no grant looks at taken away: silence and the two marks. -/
def plainEntry (e : PeerEntry) : PeerEntry := { e with silence := 0, heard := false, claimant := false }

/-- The states that the work of an event reaches from `s0`: `s0` itself and what the operations of the blocks make of a state
reached. The mark says whether the grant has been recomputed since the figures it depends on last changed (R30). The settings
change where `settings` permits it, and the power is lost where `power` does. -/
inductive Worked (settings power : Prop) (s0 : State) : Bool → State → Prop
  | start : Worked settings power s0 true s0
  /-- No claim is made of the grant any more. -/
  | unsettled {b s} (h : Worked settings power s0 b s) : Worked settings power s0 false s
  | time {b s} (d : Nat) (h : Worked settings power s0 b s) : Worked settings power s0 b (passTime d s)
  | link {b s} (v : Vlk) (h : Worked settings power s0 b s) : Worked settings power s0 b { s with vlk := v }
  | fault {b s} (e : FaultEntry) (h : Worked settings power s0 b s) :
      Worked settings power s0 b { s with flt := s.flt.append e }
  | firstOut {b s} (h : Worked settings power s0 b s) :
      Worked settings power s0 b { s with flt := { s.flt with firstOut := none } }
  | episode {b s} (e : Epi) (h : Worked settings power s0 b s) : Worked settings power s0 b { s with epi := e }
  | traceEntry {b s} (e : TraceEntry) (h : Worked settings power s0 b s) :
      Worked settings power s0 b { s with trc := s.trc.enter e }
  | traceFrozen {b s} (h : Worked settings power s0 b s) :
      Worked settings power s0 b { s with trc := { s.trc with frozen := true } }
  | traceRead {b s} (h : Worked settings power s0 b s) : Worked settings power s0 b { s with trc := s.trc.afterRead }
  | line {b s} (d : Dli) (h : Worked settings power s0 b s) (drops : d.dropCount = s.dli.dropCount) :
      Worked settings power s0 b { s with dli := d }
  | attemptFailed {b s} (a : Attempt) (h : Worked settings power s0 b s) :
      Worked settings power s0 b { s with dli := s.dli.failed s.now a }
  | epoch {b s} (i : Ins) (h : Worked settings power s0 b s) (kept : EpochKept s.stc.op s.ins i) :
      Worked settings power s0 b { s with ins := i }
  /-- The window flag, the stagger timer and the conversion cycle. -/
  | heater {b s} (x : Htr) (h : Worked settings power s0 b s) (zones : x.zones = s.htr.zones)
      (contactor : x.contactor = s.htr.contactor) (idle : x.idle = s.htr.idle) :
      Worked settings power s0 b { s with htr := x }
  | heaterIdle {b s} (h : Worked settings power s0 b s) (runs : s.htr.idle ≠ none) :
      Worked settings power s0 b { s with htr := { s.htr with idle := none, contactor := false } }
  | zone {b s} (z : ZoneId) (x : Zone) (h : Worked settings power s0 b s)
      (off : x.heats = true → (s.htr.zones.get z).heats = true) : Worked settings power s0 b (setZone z x s)
  | switchOn {b s} (h : Worked settings power s0 b s) :
      Worked settings power s0 b { s with htr := s.htr.switchOn s.now (inSession s) s.dmu.heaterAllow s.cfg }
  | idleStart {b s} (had : Bool) (h : Worked settings power s0 b s) :
      Worked settings power s0 b { s with htr := s.htr.startIdle s.now (inSession s) had }
  | meter {b s} (m : Mtr) (h : Worked settings power s0 b s) (lifetime : m.lifetime = s.mtr.lifetime) :
      Worked settings power s0 b { s with mtr := m }
  | share {b s} (u : Shu) (h : Worked settings power s0 b s) (kept : ShareKept s.dmu.chargerAllow s.shu u) :
      Worked settings power s0 b { s with shu := u }
  | holdStart {b s} (carried : Nat) (h : Worked settings power s0 b s) (starts : startsHold carried s.shu = true) :
      Worked settings power s0 b { s with shu := s.shu.startHold s.now s.cfg.ta }
  | holdTimer {b s} (h : Worked settings power s0 b s) :
      Worked settings power s0 b { s with shu := { s.shu with holdTimer := none } }
  | demand {b s} (d : Dmu) (h : Worked settings power s0 b s) (charger : d.chargerAllow = s.dmu.chargerAllow)
      (heater : d.heaterAllow = s.dmu.heaterAllow) : Worked settings power s0 false { s with dmu := d }
  | demandKept {b s} (d : Dmu) (h : Worked settings power s0 b s) (charger : d.chargerAllow = s.dmu.chargerAllow)
      (heater : d.heaterAllow = s.dmu.heaterAllow) (own : d.ownDemand = s.dmu.ownDemand)
      (weight : d.weight = s.dmu.weight) : Worked settings power s0 b { s with dmu := d }
  | regrant {b s} (h : Worked settings power s0 b s) : Worked settings power s0 true (resplit (regrant s))
  | table {b s} (h : Worked settings power s0 b s) : Worked settings power s0 true (settleTable s)
  | split {b s} (h : Worked settings power s0 b s) : Worked settings power s0 b (resplit s)
  | holdTest {b s} (h : Worked settings power s0 b s) : Worked settings power s0 b (resplit (holdTest s))
  /-- Marks and silences of the entries. -/
  | entryMarks {b s} (es : List PeerEntry) (h : Worked settings power s0 b s)
      (plain : es.map plainEntry = s.ptb.entries.map plainEntry) : Worked settings power s0 b (setEntries es s)
  | refreshed {b s} (code : Nat) (h : Worked settings power s0 b s) (fresh : wasStale code s.ptb.entries = false) :
      Worked settings power s0 b (setEntries (updateEntry code PeerEntry.refreshed s.ptb.entries) s)
  /-- Entries changed or removed, and F after it. -/
  | entries {b s} (es : List PeerEntry) (h : Worked settings power s0 b s)
      (codes : (es.map PeerEntry.code).Sublist (s.ptb.entries.map PeerEntry.code)) :
      Worked settings power s0 false { s with ptb := { s.ptb with entries := es }.refreshFeeder s.cfg.feederLimit }
  | entered {b s} (e : PeerEntry) (h : Worked settings power s0 b s) (own : e.code ≠ s.cfg.stationCode)
      (absent : findEntry e.code s.ptb.entries = none) (room : s.ptb.entries.length < Config.peerCapacity) :
      Worked settings power s0 false
        { s with ptb := { s.ptb with entries := insertEntry e s.ptb.entries }.refreshFeeder s.cfg.feederLimit }
  | emptied {b s} (h : Worked settings power s0 b s) : Worked settings power s0 false (emptyTable s)
  | unlisted {b s} (m : Option Nat) (h : Worked settings power s0 b s) :
      Worked settings power s0 false { s with ptb := { s.ptb with unlisted := m } }
  | unlistedKept {b s} (m : Option Nat) (h : Worked settings power s0 b s) (runs : m.isSome = s.ptb.unlisted.isSome) :
      Worked settings power s0 b { s with ptb := { s.ptb with unlisted := m } }
  /-- The station moves between two states in which no session is open, START not the one before the move. -/
  | station {b s} (c : Stc) (h : Worked settings power s0 b s) (noSession : s.stc.op ≠ .session)
      (noStart : s.stc.op ≠ .start) (dest : c.op ≠ .session) (contactor : c.contactor = s.stc.contactor) :
      Worked settings power s0 b { s with stc := c }
  | departed {b s} (reason : CloseReason) (code : Option FaultCode) (dest : OpState) (h : Worked settings power s0 b s)
      (session : s.stc.op = .session) (leaves : dest ≠ .session) :
      Worked settings power s0 true (depart reason code dest s)
  | opened {b s} (h : Worked settings power s0 b s) (linked : s.stc.op = .linked)
      (room : s.ses.hasRoom s.mtr.lifetime = true) : Worked settings power s0 true (openedSession s)
  | credited {b s} (h : Worked settings power s0 b s) : Worked settings power s0 b (writeSnapshot (creditInterval s))
  | acknowledged {b s} (n : Nat) (h : Worked settings power s0 b s) :
      Worked settings power s0 b { s with ses := s.ses.ack n }
  | configured {b s} (bs : List Byte) (h : Worked settings power s0 b s) (may : settings) (atStart : s.stc.op = .start)
      (accepted : configRefused bs = false) : Worked settings power s0 true (configured (configOf bs) s)
  | reset {b s} (h : Worked settings power s0 b s) (may : settings) (noSession : s.stc.op ≠ .session) :
      Worked settings power s0 true (resetBlocks s)
  | powerLost {b s} (h : Worked settings power s0 b s) (may : settings) (lost : power) :
      Worked settings power s0 true (powerOn s)

section
variable {settings power : Prop} {s0 s : State} {b : Bool}

/-- A settled state serves where no claim is made of the grant. -/
theorem Worked.settled (h : Worked settings power s0 true s) : Worked settings power s0 b s := by
  cases b
  · exact h.unsettled
  · exact h

/-! ## Time, faults, marks and moves -/

theorem worked_elapse (t : Nat) (h : Worked settings power s0 b s) : Worked settings power s0 b (elapse t s) := by
  unfold elapse
  split
  · exact h
  · exact h.time _

theorem worked_post (e : Event) (h : Worked settings power s0 b s) : Worked settings power s0 b (post e s) := h.link _

theorem worked_queueFrame (k : FrameKind) (c : TxContent) (h : Worked settings power s0 b s) :
    Worked settings power s0 b (queueFrame k c s) := h.line _ (queueFrame_times s.stc.op k c s.dli).2.2.2.2.2.2.2

theorem withdrawEpoch_dropCount (now : Nat) (d : Dli) : (d.withdrawEpoch now).dropCount = d.dropCount := by
  unfold Dli.withdrawEpoch
  split
  · split <;> rfl
  · rfl

theorem cutOffOthers_dropCount (now : Nat) (d : Dli) : (d.cutOffOthers now).dropCount = d.dropCount := by
  unfold Dli.cutOffOthers
  split
  · split <;> rfl
  · rfl

theorem cutOffAny_dropCount (now : Nat) (d : Dli) : (d.cutOffAny now).dropCount = d.dropCount := by
  unfold Dli.cutOffAny
  split <;> rfl

theorem stopFramer_dropCount (now : Nat) (d : Dli) : (d.stopFramer now).dropCount = d.dropCount := by
  unfold Dli.stopFramer
  split <;> rfl

theorem worked_withdrawEpoch (h : Worked settings power s0 b s) : Worked settings power s0 b (withdrawEpoch s) :=
  h.line _ (withdrawEpoch_dropCount _ _)

theorem worked_recordFault (c : FaultCode) (d : FaultDetail) (h : Worked settings power s0 b s) :
    Worked settings power s0 b (recordFault c d s) := worked_post _ (h.fault _)

theorem worked_syncMarks (h : Worked settings power s0 b s) : Worked settings power s0 b (syncMarks s) :=
  h.entryMarks _ (by simp [plainEntry, Function.comp_def])

theorem worked_setClaimants (cs : List Claimant) (h : Worked settings power s0 b s) :
    Worked settings power s0 b (setClaimants cs s) := worked_syncMarks (h.episode _)

theorem worked_endCalibrate (res : Result) (data : List Byte) (h : Worked settings power s0 b s) :
    Worked settings power s0 b (endCalibrate res data s) := by
  unfold endCalibrate
  split
  · exact h
  · exact h.link _

theorem worked_abandonSlot (h : Worked settings power s0 b s) : Worked settings power s0 b (abandonSlot s) := by
  unfold abandonSlot
  split
  · exact h
  · exact worked_endCalibrate _ _ (h.meter _ rfl)

/-! ## Grant and table -/

theorem worked_settleDemand {d : Dmu} (before : Dmu) (hc : d.chargerAllow = s.dmu.chargerAllow)
    (hh : d.heaterAllow = s.dmu.heaterAllow) (ho : before.ownDemand = s.dmu.ownDemand) (hw : before.weight = s.dmu.weight)
    (h : Worked settings power s0 b s) : Worked settings power s0 b (settleDemand before { s with dmu := d }) := by
  unfold settleDemand
  split
  · next same => exact (h.demandKept d hc hh (same.1.trans ho) (same.2.trans hw)).split
  · exact (h.demand d hc hh).regrant.settled

theorem worked_mismatch (c : FaultCode) (d : FaultDetail) (p : Prop) [Decidable p] (h : Worked settings power s0 b s) :
    Worked settings power s0 b (if p then recordFault c d s else s) := by
  split
  · exact worked_recordFault c d h
  · exact h

theorem worked_refreshFeeder {es : List PeerEntry}
    (h : Worked settings power s0 false { s with ptb := { s.ptb with entries := es }.refreshFeeder s.cfg.feederLimit }) :
    Worked settings power s0 false (refreshFeeder (setEntries es s)) := worked_mismatch _ _ _ h

theorem worked_tableChanged (h : Worked settings power s0 false (refreshFeeder s)) :
    Worked settings power s0 b (tableChanged s) := h.table.settled

theorem updateEntry_codes (code : Nat) (f : PeerEntry → PeerEntry) (es : List PeerEntry) (hf : ∀ e, (f e).code = e.code) :
    (updateEntry code f es).map PeerEntry.code = es.map PeerEntry.code := by
  rw [updateEntry, List.map_map]
  refine List.map_congr_left fun e _ => ?_
  simp only [Function.comp_apply]
  split
  · exact hf e
  · rfl

/-- Entries of one code replaced, their codes kept: a change of the table. -/
theorem worked_updateEntry (code : Nat) (f : PeerEntry → PeerEntry) (hf : ∀ e, (f e).code = e.code)
    (h : Worked settings power s0 b s) :
    Worked settings power s0 false (refreshFeeder (setEntries (updateEntry code f s.ptb.entries) s)) :=
  worked_refreshFeeder (h.entries _ (by rw [updateEntry_codes code f _ hf]))

/-- Entries of one code removed, and a claimant's departure told: a change of the table. -/
theorem worked_removeEntry (code : Nat) (h : Worked settings power s0 b s) :
    Worked settings power s0 false
      (refreshFeeder (claimantDeparted code (setEntries (removeEntry code s.ptb.entries) s))) :=
  worked_refreshFeeder (s := claimantDeparted code s)
    ((h.episode _).entries _ (List.filter_sublist.map PeerEntry.code))

theorem worked_enteredEntry (code : Nat) (f : ShareFields) (hown : code ≠ s.cfg.stationCode)
    (hnew : findEntry code s.ptb.entries = none) (hroom : s.ptb.entries.length < Config.peerCapacity)
    (h : Worked settings power s0 b s) : Worked settings power s0 false (refreshFeeder (createEntry code f s)) :=
  worked_refreshFeeder (s := { s with epi := { s.epi with claimants := markDeparted false code s.epi.claimants } })
    ((h.episode _).entered (newEntry code f s.epi.claimants) hown hnew hroom)

/-- With no change of figures, F recomputed is still F of the entries. -/
theorem worked_unlistedFeeder (m : Option Nat) (h : Worked settings power s0 b s) :
    Worked settings power s0 false (refreshFeeder { s with ptb := { s.ptb with unlisted := m } }) :=
  worked_refreshFeeder (s := { s with ptb := { s.ptb with unlisted := m } }) ((h.unlisted m).entries _ (List.Sublist.refl _))

theorem worked_sameFeeder (h : Worked settings power s0 b s) : Worked settings power s0 false (refreshFeeder s) :=
  worked_refreshFeeder (h.entries _ (List.Sublist.refl _))

/-! ## Changes of operating state -/

theorem worked_setOp (op : OpState) (h1 : s.stc.op ≠ .session) (h2 : s.stc.op ≠ .start) (h3 : op ≠ .session)
    (h : Worked settings power s0 b s) : Worked settings power s0 b (setOp op s) :=
  worked_post _ (h.station _ h1 h2 h3 rfl)

theorem worked_moveTo (op : OpState) (h1 : s.stc.op ≠ .session) (h2 : s.stc.op ≠ .start) (h3 : op ≠ .session)
    (h : Worked settings power s0 b s) : Worked settings power s0 b (moveTo op s) :=
  (worked_setOp op h1 h2 h3 h).regrant.settled

theorem worked_leaveBus (h : Worked settings power s0 b s) : Worked settings power s0 b (leaveBus s) :=
  worked_syncMarks (h.episode _)

theorem worked_enterHalted (h : Worked settings power s0 b s) : Worked settings power s0 b (enterHalted s) :=
  worked_leaveBus ((worked_queueFrame .leave .none h).line _
    ((stopFramer_dropCount _ _).trans (cutOffOthers_dropCount _ _)))

theorem worked_halt (c : FaultCode) (h : Worked settings power s0 b s) : Worked settings power s0 b (halt c s) := by
  unfold halt
  split
  · next ho => exact worked_enterHalted (h.departed _ _ _ ho (by decide)).settled
  · next ho =>
    refine worked_enterHalted (worked_moveTo _ ?_ ?_ (by decide) (worked_abandonSlot h)) <;> simp [ho]
  · next ho => exact worked_enterHalted (worked_moveTo _ (by simp [ho]) (by simp [ho]) (by decide) h)
  · exact h

theorem worked_raise (c : FaultCode) (d : FaultDetail) (h : Worked settings power s0 b s) :
    Worked settings power s0 b (raise c d s) := by
  unfold raise
  dsimp only
  split
  · exact worked_halt c (worked_recordFault c d h)
  · exact worked_recordFault c d h

theorem enterReady_dropCount (now : Nat) (d : Dli) : (d.enterReady now).dropCount = d.dropCount :=
  (stopFramer_dropCount _ _).trans (cutOffOthers_dropCount _ _)

theorem worked_enterReady (h : Worked settings power s0 b s) : Worked settings power s0 b (enterReady s) := by
  have cut := h.line _ (enterReady_dropCount s.now s.dli)
  have unseen := cut.meter s.mtr.enterReady rfl
  have still := unseen.heater s.htr.stopCycle rfl rfl rfl
  exact (worked_leaveBus still).emptied.regrant.settled

theorem worked_busLost (h : Worked settings power s0 b s) : Worked settings power s0 b (busLost s) := by
  unfold busLost
  split
  · next ho => exact worked_enterReady (worked_queueFrame _ _ (h.departed _ _ _ ho (by decide)).settled)
  · next ho => exact worked_enterReady (worked_queueFrame _ _ (worked_moveTo _ (by simp [ho]) (by simp [ho]) (by decide) h))
  · next ho => exact worked_enterReady (worked_queueFrame _ _ (worked_moveTo _ (by simp [ho]) (by simp [ho]) (by decide) h))
  · exact h

theorem worked_busPresent (h : Worked settings power s0 b s) : Worked settings power s0 b (busPresent s) := by
  unfold busPresent
  split
  · next ho =>
    have moved := worked_setOp .listening (by simp [ho]) (by simp [ho]) (by decide) h
    have window := moved.station
      { (setOp .listening s).stc with listenWindow := some (s.now + 2 * s.cfg.ta * 1000) }
      (by simp [setOp]) (by simp [setOp]) (by simp [setOp]) rfl
    have listening := window.line (s.dli.enterListening s.now) (cutOffAny_dropCount _ _)
    have converting := listening.heater (s.htr.startCycle s.now) rfl rfl rfl
    have granted := converting.regrant.settled (b := b)
    dsimp only
    split
    · exact worked_raise _ _ granted
    · exact granted
  · exact h

theorem worked_emptyIfDone (h : Worked settings power s0 b s) : Worked settings power s0 b (emptyIfDone s) := by
  unfold emptyIfDone
  split
  · exact h.emptied.table.settled
  · exact h

/-! ## The tail of an event -/

theorem worked_finish (force : Bool) (before : State) (h : Worked settings power s0 b s) :
    Worked settings power s0 b (finish force before s) := by
  unfold finish
  dsimp only
  split
  · exact (h.switchOn).idleStart _
  · exact h.idleStart _

theorem worked_event (t : Nat) {f : State → State} (hf : ∀ {x}, Worked settings power s0 true x → Worked settings power s0 true (f x))
    (h : Worked settings power s0 true s) : Worked settings power s0 true (event t f s) :=
  worked_finish _ _ (hf (worked_elapse t h))

theorem worked_eventTested (t : Nat) (tests : State → Bool) {f : State → State}
    (hf : ∀ {x}, Worked settings power s0 true x → Worked settings power s0 true (f x))
    (h : Worked settings power s0 true s) : Worked settings power s0 true (eventTested t tests f s) :=
  worked_finish _ _ (hf (worked_elapse t h))

end

end Sys2Proof.Proofs
end

section
/-! PROOF. The work of every command, as the operations of `Worked`. -/

namespace Sys2Proof.Proofs
open Sys2Proof.Machine

section
variable {settings power : Prop} {s0 s : State} {b : Bool}

/-! ## The Insulation Unit -/

/-- A change of the epoch record that keeps its state and the source, or turns the source off, is one that keeps R84 and R102. -/
theorem epochKept_of_state {op : OpState} {i j : Ins} (he : j.epochState = i.epochState)
    (hs : j.source = i.source ∨ j.source = .off) : EpochKept op i j := by
  refine ⟨fun h => .inl (he ▸ h), fun safe on => ?_⟩
  rcases hs with hs | hs
  · exact he.trans (safe (hs ▸ on))
  · exact absurd hs on

theorem epochKept_idle {op : OpState} {i j : Ins} (he : j.epochState = .idle) (hs : j.source = .off) : EpochKept op i j :=
  ⟨fun h => absurd he h, fun _ on => absurd hs on⟩

/-- The next cycle drives the source in INJECTING alone (R84, R89). -/
theorem startCycle_source {start : Nat} {i : Ins} (h : (i.startCycle start).source ≠ .off) : i.epochState = .injecting := by
  by_contra hi
  exact h (if_neg hi)

theorem epochKept_startCycle {op : OpState} {i j : Ins} (start : Nat)
    (he : j.epochState ≠ .idle → i.epochState ≠ .idle ∨ op = .session) : EpochKept op i (j.startCycle start) :=
  ⟨he, fun _ on => startCycle_source (start := start) on⟩

theorem passPoint_kept (u ib : Int) (i : Ins) :
    (i.passPoint u ib).epochState = i.epochState ∧ (i.passPoint u ib).source = i.source ∧
      (i.passPoint u ib).cycleCount = i.cycleCount := by
  unfold Ins.passPoint Ins.sample
  dsimp only
  split <;> exact ⟨rfl, rfl, rfl⟩

theorem worked_openWindow (h : Worked settings power s0 b s) : Worked settings power s0 b (openWindow s) :=
  h.heater _ rfl rfl rfl

theorem worked_closeWindow (h : Worked settings power s0 b s) : Worked settings power s0 b (closeWindow s) :=
  h.heater _ rfl rfl rfl

theorem worked_startEpochTimer (h : Worked settings power s0 b s) : Worked settings power s0 b (startEpochTimer s) :=
  h.epoch _ (epochKept_of_state rfl (.inl rfl))

theorem worked_freezeTrace (h : Worked settings power s0 b s) : Worked settings power s0 b (freezeTrace s) := by
  unfold freezeTrace
  split
  · exact h
  · exact worked_post _ h.traceFrozen

theorem worked_setEpisode (e : EpisodeState) (h : Worked settings power s0 b s) :
    Worked settings power s0 b (setEpisode e s) := h.episode _

theorem worked_enterDouble (detail : Nat) (h : Worked settings power s0 b s) :
    Worked settings power s0 b (enterDouble detail s) := worked_raise _ _ (worked_setEpisode _ h)

theorem worked_claimOwn (epoch rb : Nat) (h : Worked settings power s0 b s) :
    Worked settings power s0 b (claimOwn epoch rb s) := by
  unfold claimOwn
  dsimp only
  have joined (cs : List Claimant) := worked_setClaimants cs (worked_queueFrame .claim (.claim epoch rb) h)
  split
  · exact worked_raise _ _ (worked_setEpisode _ (joined _))
  · exact worked_raise _ _ (worked_raise _ _ (worked_setEpisode _ (joined _)))

theorem worked_claimOr (epoch measurer alarmK : Nat) {other : State → State}
    (ho : Worked settings power s0 b s → Worked settings power s0 b (other s)) (h : Worked settings power s0 b s) :
    Worked settings power s0 b (claimOr epoch measurer alarmK other s) := by
  unfold claimOr
  split
  · exact worked_claimOwn _ _ h
  · exact ho h

theorem worked_onset (epoch measurer r v : Nat) (h : Worked settings power s0 b s) :
    Worked settings power s0 b (onset epoch measurer r v s) := by
  refine worked_claimOr _ _ _ (fun h => ?_) (worked_freezeTrace ((worked_setClaimants _ (h.episode _)).episode _))
  unfold onsetDouble
  split
  · exact worked_enterDouble _ h
  · exact h

theorem worked_departureTest (r : Nat) (h : Worked settings power s0 b s) :
    Worked settings power s0 b (departureTest r s) := by
  unfold departureTest
  split
  · split
    · exact worked_enterDouble _ h
    · exact h
  · exact h

theorem worked_endEpisode (e : EpisodeState) (h : Worked settings power s0 b s) :
    Worked settings power s0 b (endEpisode e s) := worked_setEpisode _ (worked_setClaimants _ h)

theorem worked_evaluate (epoch measurer r v : Nat) (h : Worked settings power s0 b s) :
    Worked settings power s0 b (evaluate epoch measurer r v s) := by
  unfold evaluate
  dsimp only
  split
  · exact h
  · exact worked_raise _ _ (worked_setEpisode _ h)
  · exact worked_onset _ _ _ _ h
  · exact worked_setEpisode _ h
  · exact h
  · exact worked_onset _ _ _ _ h
  · exact worked_claimOr _ _ _ id h
  · exact h
  · exact worked_endEpisode _ h
  · exact worked_endEpisode _ h
  · exact worked_claimOr _ _ _ (worked_departureTest r) h
  · exact worked_claimOr _ _ _ id h
  · exact h
  · exact h
  · exact h

theorem worked_adopt (epoch measurer r v : Nat) (h : Worked settings power s0 b s) :
    Worked settings power s0 b (adopt epoch measurer r v s) := by
  have recorded := h.epoch
    { s.ins with busRecord := some { epoch := epoch, measurer := measurer, r := r, voltage := v, time := clock s } }
    (epochKept_of_state rfl (.inl rfl))
  exact worked_evaluate _ _ _ _ (recorded.traceEntry _)

theorem worked_claimWindowEnds (h : Worked settings power s0 b s) : Worked settings power s0 b (claimWindowEnds s) := by
  unfold claimWindowEnds
  split
  · exact worked_raise _ _ (worked_setEpisode _ h)
  · exact worked_setEpisode _ h
  · exact h.episode _

theorem worked_idleAndTimer (h : Worked settings power s0 b s) : Worked settings power s0 b (idleAndTimer s) :=
  worked_startEpochTimer (h.epoch _ (epochKept_idle rfl rfl))

theorem worked_endOwnEpoch (r : Option Nat) (h : Worked settings power s0 b s) :
    Worked settings power s0 b (endOwnEpoch r s) := by
  unfold endOwnEpoch
  dsimp only
  have recorded : Worked settings power s0 b { s with ins := s.ins.setBranchRecord } :=
    h.epoch _ (epochKept_of_state rfl (.inl rfl))
  have withdrawn : Worked settings power s0 b (if s.ins.setBranchRecord.resend = true
      then withdrawEpoch { s with ins := s.ins.setBranchRecord } else { s with ins := s.ins.setBranchRecord }) := by
    split
    · exact worked_withdrawEpoch recorded
    · exact recorded
  have off := (worked_closeWindow withdrawn).epoch
    { (closeWindow (if s.ins.setBranchRecord.resend = true
        then withdrawEpoch { s with ins := s.ins.setBranchRecord } else { s with ins := s.ins.setBranchRecord })).ins with
      source := .off, resend := false } (epochKept_of_state rfl (.inr rfl))
  have told {x : State} (hx : Worked settings power s0 b x) :
      Worked settings power s0 b (if x.stc.op = .session then idleAndTimer x else x) := by
    split
    · exact worked_idleAndTimer hx
    · exact hx
  apply told
  split
  · exact worked_adopt _ _ _ _ (worked_queueFrame _ _ off)
  · exact worked_raise _ _ ((worked_queueFrame _ _ off).traceEntry _)

theorem worked_observeEpoch (code epoch half : Nat) (ho : s.stc.op = .session) (h : Worked settings power s0 b s) :
    Worked settings power s0 b (observeEpoch code epoch half s) :=
  worked_closeWindow (h.epoch _ (epochKept_startCycle _ fun _ => .inr ho))

theorem worked_keepInjecting (h : Worked settings power s0 b s) : Worked settings power s0 b (keepInjecting s) := by
  unfold keepInjecting
  dsimp only
  have dropped := h.epoch s.ins.discardCycle (epochKept_of_state rfl (.inl rfl))
  split
  · exact dropped
  · exact worked_queueFrame _ _ (dropped.epoch _ (epochKept_of_state rfl (.inl rfl)))

theorem epochKept_restart (op : OpState) (now : Nat) (i : Ins) : EpochKept op i (i.restart now) := by
  unfold Ins.restart
  dsimp only
  split
  · exact epochKept_startCycle _ fun h => .inl h
  · exact epochKept_of_state rfl (.inr rfl)

theorem worked_epochInSession (code epoch half : Nat) (ho : s.stc.op = .session) (h : Worked settings power s0 b s) :
    Worked settings power s0 b (epochInSession code epoch half s) := by
  unfold epochInSession
  split
  · exact worked_observeEpoch _ _ _ ho h
  · exact worked_observeEpoch _ _ _ ho (worked_withdrawEpoch h)
  · split
    · exact worked_observeEpoch _ _ _ ho (worked_withdrawEpoch h)
    · exact worked_keepInjecting h
  · unfold epochWhileObserving
    split
    · exact worked_observeEpoch _ _ _ ho h
    · split
      · split
        · exact worked_closeWindow (h.epoch _ (epochKept_restart _ _ _))
        · exact worked_observeEpoch _ _ _ ho h
      · exact h

theorem worked_setLastEpoch (epoch : Nat) (h : Worked settings power s0 b s) :
    Worked settings power s0 b (setLastEpoch epoch s) := h.epoch _ (epochKept_of_state rfl (.inl rfl))

theorem worked_takeEpoch (code epoch half : Nat) (h : Worked settings power s0 b s) :
    Worked settings power s0 b (takeEpoch code epoch half s) := by
  unfold takeEpoch
  dsimp only
  split
  · split
    · next ho => exact worked_epochInSession _ _ _ ho (worked_startEpochTimer (worked_setLastEpoch _ h))
    · exact worked_setLastEpoch _ h
  · exact h

theorem worked_endObserved (h : Worked settings power s0 b s) : Worked settings power s0 b (endObserved s) :=
  worked_closeWindow (h.epoch _ (epochKept_idle rfl rfl))

theorem worked_takeFinding (code epoch result r v : Nat) (h : Worked settings power s0 b s) :
    Worked settings power s0 b (takeFinding code epoch result r v s) := by
  unfold takeFinding
  dsimp only
  have ended : Worked settings power s0 b (if (setLastEpoch epoch s).ins.endsObserved code epoch = true
      then endObserved (setLastEpoch epoch s) else setLastEpoch epoch s) := by
    split
    · exact worked_endObserved (worked_setLastEpoch _ h)
    · exact worked_setLastEpoch _ h
  have told {x : State} (hx : Worked settings power s0 b x) :
      Worked settings power s0 b (if x.stc.op = .session then startEpochTimer x else x) := by
    split
    · exact worked_startEpochTimer hx
    · exact hx
  split
  · apply told
    split
    · exact worked_adopt _ _ _ _ ended
    · exact ended.traceEntry _
  · exact h

theorem worked_takeClaim (code epoch rb : Nat) (h : Worked settings power s0 b s) :
    Worked settings power s0 b (takeClaim code epoch rb s) := by
  unfold takeClaim
  dsimp only
  split
  · split
    · exact worked_setClaimants _ h
    · unfold memberJoined
      split
      · split
        · exact worked_enterDouble _ (worked_setClaimants _ h)
        · exact worked_setClaimants _ h
      · exact worked_enterDouble _ (worked_setClaimants _ h)
      · exact worked_enterDouble _ (worked_setClaimants _ h)
      · exact worked_setClaimants _ h
  · exact h

theorem worked_passPoint (u ib : Int) (h : Worked settings power s0 b s) : Worked settings power s0 b (passPoint u ib s) :=
  h.epoch _ (epochKept_of_state (passPoint_kept _ _ _).1 (.inl (passPoint_kept _ _ _).2.1))

theorem worked_samplePoint (u ib : Int) (h : Worked settings power s0 b s) :
    Worked settings power s0 b (samplePoint u ib s) := by
  unfold samplePoint
  split
  · apply worked_passPoint
    split
    · exact worked_openWindow h
    · exact h
  · exact h

theorem epochKept_followCycle (op : OpState) (start : Nat) (i : Ins) : EpochKept op i (i.followCycle start) := by
  unfold Ins.followCycle
  split
  · exact epochKept_startCycle _ fun h => .inl h
  · exact epochKept_of_state rfl (.inr rfl)

theorem worked_cycleEnd (m : Nat) (h : Worked settings power s0 b s) : Worked settings power s0 b (cycleEnd m s) := by
  unfold cycleEnd
  dsimp only
  have ended := h.epoch (s.ins.endCycle s.trm.inUse) (epochKept_of_state rfl (.inl rfl))
  split
  · exact worked_endOwnEpoch _ ended
  · exact worked_endOwnEpoch _ ended
  · exact ended.epoch _ (epochKept_followCycle _ _ _)

theorem worked_halfEnds (u ib : Int) (h : Worked settings power s0 b s) : Worked settings power s0 b (halfEnds u ib s) := by
  unfold halfEnds
  dsimp only
  have sampled := worked_closeWindow (worked_passPoint u ib h)
  split
  · split
    · refine sampled.epoch _ ⟨fun he => .inl he, fun _ on => ?_⟩
      by_contra hi
      exact on (if_neg hi)
    · exact worked_cycleEnd _ sampled
  · exact h

theorem worked_startOwnEpoch (ho : s.stc.op = .session) (hi : s.ins.epochState = .idle) (h : Worked settings power s0 b s) :
    Worked settings power s0 b (startOwnEpoch s) := by
  refine worked_queueFrame _ _ (h.epoch _ ⟨fun _ => .inr ho, fun safe on => ?_⟩)
  have := safe on
  rw [hi] at this
  cases this

theorem worked_epochSent (h : Worked settings power s0 b s) : Worked settings power s0 b (epochSent s) := by
  unfold epochSent
  split
  · next hp => exact h.epoch _ (epochKept_startCycle _ fun _ => .inl (by simp [hp]))
  · split
    · unfold moveOrigin
      dsimp only
      have moved : Worked settings power s0 b { s with ins := { s.ins.restart s.now with resend := false } } :=
        h.epoch _ (epochKept_restart s.stc.op s.now s.ins)
      split
      · exact worked_closeWindow moved
      · exact worked_endOwnEpoch _ (worked_closeWindow moved)
    · exact h
  · exact h

theorem worked_epochDropped (h : Worked settings power s0 b s) : Worked settings power s0 b (epochDropped s) := by
  unfold epochDropped
  split
  · exact worked_idleAndTimer h
  · split
    · exact worked_idleAndTimer (worked_closeWindow h)
    · exact h
  · exact h

/-! ## Frames from the line -/

theorem worked_handleAnnounce (code : Nat) (f : ShareFields) (hown : code ≠ s.cfg.stationCode)
    (h : Worked settings power s0 b s) : Worked settings power s0 b (handleAnnounce code f s) := by
  unfold handleAnnounce
  split
  · split
    · exact worked_tableChanged (worked_updateEntry code _ (fun _ => rfl) h)
    · next absent =>
      split
      · next room => exact worked_tableChanged (worked_enteredEntry code f hown absent room h)
      · unfold unlistedAnnounce
        split
        · next runs => exact h.unlistedKept _ (by simp [runs])
        · exact worked_tableChanged (worked_sameFeeder (worked_raise _ _ (h.unlisted _)))
  · exact h

theorem worked_handleAlive (code : Nat) {take : State → State}
    (ht : ∀ {c x}, Worked settings power s0 c x → Worked settings power s0 c (take x)) (h : Worked settings power s0 b s) :
    Worked settings power s0 b (handleAlive code take s) := by
  unfold handleAlive
  dsimp only
  split
  · exact (ht (worked_updateEntry code PeerEntry.refreshed (fun _ => rfl) h)).table.settled
  · next fresh => exact ht (h.refreshed code (by simpa using fresh))

theorem worked_handleLeave (code : Nat) (h : Worked settings power s0 b s) :
    Worked settings power s0 b (handleLeave code s) := by
  unfold handleLeave
  dsimp only
  split
  · exact worked_tableChanged (worked_removeEntry code h)
  · next absent =>
    have same : removeEntry code s.ptb.entries = s.ptb.entries :=
      List.filter_eq_self.2 fun e he => by
        have := List.find?_eq_none.1 absent e he
        simpa using this
    rw [same]
    exact h.episode _

theorem worked_handleFrame (code : Nat) (p : Payload) (hown : code ≠ s.cfg.stationCode) (h : Worked settings power s0 b s) :
    Worked settings power s0 b (handleFrame code p s) := by
  cases p with
  | announce f => exact worked_handleAnnounce code f hown h
  | epoch n half => exact worked_handleAlive code (worked_takeEpoch code n half) h
  | finding n result r v => exact worked_handleAlive code (worked_takeFinding code n result r v) h
  | claim n rb => exact worked_handleAlive code (worked_takeClaim code n rb) h
  | leave => exact worked_handleLeave code h

theorem worked_lineIdle (gap framer : Nat) (h : Worked settings power s0 b s) :
    Worked settings power s0 b (lineIdle gap framer s) := h.line _ rfl

theorem worked_unlessSending {f : State → State} (hf : Worked settings power s0 b s → Worked settings power s0 b (f s))
    (h : Worked settings power s0 b s) : Worked settings power s0 b (unlessSending f s) := by
  unfold unlessSending
  split
  · exact h
  · exact hf h

theorem worked_arrive (x : Header) (p : Payload) (h : Worked settings power s0 b s) :
    Worked settings power s0 b (arrive x p s) := by
  refine worked_unlessSending (fun h => ?_) h
  unfold frameArrives
  dsimp only
  have idle := worked_lineIdle (idleAfter s.now (arrivedFrame x p).lineBits) (s.now + Config.gapMicros) h
  split
  · split
    · exact worked_raise _ _ idle
    · next hown =>
      split
      · exact worked_handleFrame _ _ hown idle
      · exact idle
  · exact idle

theorem worked_receiveBits (begun : Nat) (bits : List Bool) (h : Worked settings power s0 b s) :
    Worked settings power s0 b (receiveBits begun bits s) := by
  unfold receiveBits
  split
  · exact worked_arrive _ _ h
  · exact worked_unlessSending (worked_lineIdle _ _) h

theorem worked_goStale (code : Nat) (h : Worked settings power s0 b s) : Worked settings power s0 b (goStale code s) := by
  unfold goStale
  split
  · exact worked_tableChanged (worked_updateEntry code PeerEntry.goStale (fun _ => rfl) h)
  · exact h

theorem worked_removeSilent (code : Nat) (h : Worked settings power s0 b s) :
    Worked settings power s0 b (removeSilent code s) := by
  unfold removeSilent
  split
  · exact worked_tableChanged (worked_removeEntry code h)
  · exact h

theorem worked_unlistedEnds (h : Worked settings power s0 b s) : Worked settings power s0 b (unlistedEnds s) := by
  unfold unlistedEnds
  split
  · exact worked_tableChanged (worked_unlistedFeeder none h)
  · exact h

/-! ## The transmitter and the timers of the line -/

theorem worked_attemptStarts (recessive : Nat) (h : Worked settings power s0 b s) :
    Worked settings power s0 b (attemptStarts recessive s) := by
  unfold attemptStarts
  split
  · exact h.line _ rfl
  · exact h

theorem worked_frameSent (k : FrameKind) {tell : Attempt → State → State}
    (ht : ∀ {a x}, Worked settings power s0 b x → Worked settings power s0 b (tell a x)) (h : Worked settings power s0 b s) :
    Worked settings power s0 b (frameSent k tell s) := by
  unfold frameSent
  split
  · exact ht (h.line _ rfl)
  · exact h

theorem worked_announceSent (a : Attempt) (h : Worked settings power s0 b s) :
    Worked settings power s0 b (announceSent a s) := by
  unfold announceSent
  split
  · next starts =>
    exact (h.holdStart _ starts).entryMarks _ (by simp [plainEntry, PeerEntry.unheard, Function.comp_def])
  · exact h

theorem worked_dropTold (k : FrameKind) (h : Worked settings power s0 b s) : Worked settings power s0 b (dropTold k s) := by
  cases k with
  | epoch => exact worked_epochDropped h
  | claim => exact worked_emptyIfDone h
  | leave => exact worked_emptyIfDone h
  | finding => exact h
  | announce => exact h

theorem worked_attemptFails (h : Worked settings power s0 b s) : Worked settings power s0 b (attemptFails s) := by
  unfold attemptFails
  split
  · exact h
  · dsimp only
    split
    · exact worked_dropTold _ (worked_post _ (h.attemptFailed _))
    · exact h.attemptFailed _

theorem worked_backoffEnds (h : Worked settings power s0 b s) : Worked settings power s0 b (backoffEnds s) := by
  unfold backoffEnds
  split
  · exact h.line _ rfl
  · exact h

theorem worked_holdTimerEnds (h : Worked settings power s0 b s) : Worked settings power s0 b (holdTimerEnds s) := by
  unfold holdTimerEnds
  split
  · exact h.holdTimer.holdTest
  · exact h

theorem worked_startAnnounce (start : Nat) (h : Worked settings power s0 b s) :
    Worked settings power s0 b (startAnnounce start s) := h.line _ rfl

theorem worked_announceTimerEnds (h : Worked settings power s0 b s) :
    Worked settings power s0 b (announceTimerEnds s) := by
  unfold announceTimerEnds
  split
  · split
    · exact worked_startAnnounce _ (worked_queueFrame _ _ h)
    · exact h
  · exact h

theorem worked_listenWindowEnds (h : Worked settings power s0 b s) :
    Worked settings power s0 b (listenWindowEnds s) := by
  unfold listenWindowEnds
  split
  · next hc =>
    exact worked_startAnnounce _ (worked_queueFrame _ _ (worked_moveTo _ (by simp [hc.1]) (by simp [hc.1]) (by decide) h))
  · exact h

/-! ## Heater, insulation timers, meter, converter -/

theorem worked_zoneChanged (z : ZoneId) (old new : Zone) (hoff : new.heats = true → (s.htr.zones.get z).heats = true)
    (h : Worked settings power s0 b s) : Worked settings power s0 b (zoneChanged z old new s) := by
  unfold zoneChanged
  dsimp only
  have settled : Worked settings power s0 b (settleDemand s.dmu (refreshDemand (setZone z new s))) :=
    worked_settleDemand (s := setZone z new s) s.dmu rfl rfl rfl rfl (h.zone z new hoff)
  split
  · unfold raiseOut raiseAllOut
    dsimp only
    split
    · exact worked_raise _ _ (worked_raise _ _ settled)
    · exact worked_raise _ _ settled
  · exact settled

theorem nextState_heating {cfg : Settings} {c : Conversion} {z : Zone} (h : z.nextState cfg c = .heating) :
    z.state = .heating := by
  unfold Zone.nextState at h
  split at h
  · cases h
  · cases h
  · cases h
  · split at h
    · cases h
    · split at h
      · split at h <;> cases h
      · split at h <;> cases h
      · assumption
      · cases h

/-- A conversion switches no zone on (R71). -/
theorem convert_heats {cfg : Settings} {c : Conversion} {z : Zone} (h : (z.convert cfg c).heats = true) : z.heats = true := by
  simp only [Zone.heats, decide_eq_true_eq] at h ⊢
  exact nextState_heating h

theorem worked_conversion (z : ZoneId) (c : Conversion) (h : Worked settings power s0 b s) :
    Worked settings power s0 b (conversion z c s) := by
  unfold conversion
  dsimp only
  have noted : Worked settings power s0 b { s with htr := s.htr.noteConversion s.now z } := h.heater _ rfl rfl rfl
  split
  · split
    · exact worked_zoneChanged _ _ _ convert_heats noted
    · exact noted
  · exact h

theorem worked_doseLimitReached (z : ZoneId) (h : Worked settings power s0 b s) :
    Worked settings power s0 b (doseLimitReached z s) := by
  unfold doseLimitReached
  dsimp only
  split
  · exact worked_zoneChanged _ _ _ (by simp [Zone.exhaust, Zone.heats]) h
  · exact h

theorem worked_staggerEnds (h : Worked settings power s0 b s) : Worked settings power s0 b (staggerEnds s) := by
  unfold staggerEnds
  split
  · exact h.heater _ rfl rfl rfl
  · exact h

theorem worked_idleEnds (h : Worked settings power s0 b s) : Worked settings power s0 b (idleEnds s) := by
  unfold idleEnds
  split
  · next run => exact h.heaterIdle (by rintro none; simp [due, none] at run)
  · exact h

theorem worked_epochTimerEnds (h : Worked settings power s0 b s) : Worked settings power s0 b (epochTimerEnds s) := by
  unfold epochTimerEnds
  dsimp only
  have stopped : Worked settings power s0 b { s with ins := { s.ins with epochTimer := none } } :=
    h.epoch _ (epochKept_of_state rfl (.inl rfl))
  split
  · split
    · next hc => exact worked_startOwnEpoch hc.1 hc.2 stopped
    · exact stopped
  · exact h

theorem worked_lossDeadlineEnds (h : Worked settings power s0 b s) : Worked settings power s0 b (lossDeadlineEnds s) := by
  unfold lossDeadlineEnds
  split
  · exact worked_startEpochTimer (worked_endObserved h)
  · exact h

theorem worked_claimWindowExpires (h : Worked settings power s0 b s) :
    Worked settings power s0 b (claimWindowExpires s) := by
  unfold claimWindowExpires
  split
  · exact worked_claimWindowEnds h
  · exact h

theorem ramp_kept (allow : Nat) (u : Shu) : ShareKept allow u (u.ramp allow) := by
  refine ⟨rfl, rfl, rfl, rfl, rfl, rfl, rfl, rfl, ?_⟩
  unfold Shu.ramp
  dsimp only
  split
  · exact .inr (Nat.min_le_right _ _)
  · exact .inl rfl

theorem supervise_kept (slot : Bool) (corrected bound : Int) (allow : Nat) (u v : Shu) (h : ShareKept allow u v) :
    ShareKept allow u (v.supervise slot corrected bound) := by
  unfold Shu.supervise
  repeat' split
  all_goals exact h

theorem worked_rampAndSupervise (slot : Bool) (corrected : Int) (h : Worked settings power s0 b s) :
    Worked settings power s0 b (rampAndSupervise slot corrected s) := by
  unfold rampAndSupervise
  dsimp only
  have supervised := h.share _ (supervise_kept slot corrected (overdrawBound s.shu.limit s.cfg.tolerance) _ _ _
    (ramp_kept s.dmu.chargerAllow s.shu))
  split
  · unfold overdrawRaised
    dsimp only
    split
    · exact worked_raise _ _ supervised
    · exact (worked_raise _ _ supervised).share _ ⟨rfl, rfl, rfl, rfl, rfl, rfl, rfl, rfl, .inl rfl⟩
  · exact supervised

theorem worked_intervalTest (h : Worked settings power s0 b s) : Worked settings power s0 b (intervalTest s) := by
  unfold intervalTest
  split
  · have settled : Worked settings power s0 b
        (settleDemand s.dmu (reweigh (refreshDemand (rereadDelivered (writeSnapshot (creditInterval s)))))) :=
      worked_settleDemand (s := writeSnapshot (creditInterval s)) s.dmu rfl rfl rfl rfl h.credited
    exact settled.meter _ rfl
  · exact h

theorem judgePresence_lifetime (threshold v : Nat) (m : Mtr) : (m.judgePresence threshold v).lifetime = m.lifetime := by
  unfold Mtr.judgePresence
  repeat' split
  all_goals rfl

theorem worked_judgeBus (v : Nat) (h : Worked settings power s0 b s) : Worked settings power s0 b (judgeBus v s) := by
  unfold judgeBus
  dsimp only
  have judged := h.meter _ (judgePresence_lifetime s.cfg.busThreshold v s.mtr)
  split
  · exact worked_busPresent judged
  · split
    · exact worked_busLost judged
    · exact judged

theorem worked_judgeSlot (reading : Int) (h : Worked settings power s0 b s) :
    Worked settings power s0 b (judgeSlot reading s) := by
  unfold judgeSlot
  dsimp only
  have judged : Worked settings power s0 b { s with mtr := s.mtr.judgeSlot reading } := h.meter _ rfl
  split
  · exact worked_endCalibrate _ _ judged
  · exact worked_raise _ _ (worked_endCalibrate _ _ judged)

theorem accumulate_lifetime (slot : Bool) (x : MeterSample) (m : Mtr) : (m.accumulate slot x).lifetime = m.lifetime := by
  unfold Mtr.accumulate
  dsimp only
  split <;> rfl

theorem worked_creditSample (slot : Bool) (x : MeterSample) (h : Worked settings power s0 b s) :
    Worked settings power s0 b (creditSample slot x s) := by
  unfold creditSample
  split
  · exact worked_rampAndSupervise _ _ (h.meter _ (accumulate_lifetime slot x s.mtr))
  · exact h

theorem worked_slotTest (slot : Bool) (reading : Int) (h : Worked settings power s0 b s) :
    Worked settings power s0 b (slotTest slot reading s) := by
  unfold slotTest
  split
  · exact worked_judgeSlot _ h
  · exact h

theorem worked_sampleCompletes (m : MeterInputs) (h : Worked settings power s0 b s) :
    Worked settings power s0 b (sampleCompletes m s) := by
  unfold sampleCompletes
  dsimp only
  split
  · refine (worked_slotTest _ _ (worked_judgeBus _ (worked_intervalTest (worked_creditSample _ _ ?_)))).meter _ rfl
    exact h.meter _ rfl
  · split
    · unfold overtakenSample
      dsimp only
      split
      · exact worked_busLost (h.meter _ (judgePresence_lifetime _ _ _))
      · exact h.meter _ rfl
    · exact h

theorem worked_converterInput (asserted : Bool) (h : Worked settings power s0 b s) :
    Worked settings power s0 b (converterInput asserted s) := by
  unfold converterInput
  dsimp only
  have level : Worked settings power s0 b { s with shu := { s.shu with faultInput := asserted } } :=
    h.share _ ⟨rfl, rfl, rfl, rfl, rfl, rfl, rfl, rfl, .inl rfl⟩
  split
  · exact worked_raise _ _ level
  · exact level

/-! ## Requests -/

theorem worked_reply (code tag : Byte) (res : Result) (data : List Byte) (h : Worked settings power s0 b s) :
    Worked settings power s0 b (reply code tag res data s) := h.link _

theorem worked_handOver {code tag : Byte} {params : List Byte} {serve : State → State}
    (hs : served code s.stc.op = true → Worked settings power s0 b s → Worked settings power s0 b (serve s))
    (h : Worked settings power s0 b s) : Worked settings power s0 b (handOver code tag params serve s) := by
  unfold handOver
  split
  · next ok =>
    split
    · exact hs ok h
    · exact worked_reply _ _ _ _ h
  · exact worked_reply _ _ _ _ h

theorem worked_takeRequest {code tag : Byte} {params : List Byte} {serve : State → State}
    (hs : ∀ x, served code x.stc.op = true → Worked settings power s0 b x → Worked settings power s0 b (serve x))
    (h : Worked settings power s0 b s) : Worked settings power s0 b (takeRequest code tag params serve s) := by
  unfold takeRequest
  split
  · exact h
  · split
    · exact h.link _
    · exact worked_handOver (hs _) (h.link _)

theorem worked_serveReadStatus (tag : Byte) (h : Worked settings power s0 b s) :
    Worked settings power s0 b (serveReadStatus tag s) := worked_reply _ _ _ _ (h.link _)

theorem worked_serveReadTrace (tag : Byte) (h : Worked settings power s0 b s) :
    Worked settings power s0 b (serveReadTrace tag s) := worked_reply _ _ _ _ h.traceRead

theorem worked_serveAckSession (tag : Byte) (params : List Byte) (h : Worked settings power s0 b s) :
    Worked settings power s0 b (serveAckSession tag params s) := worked_reply _ _ _ _ (h.acknowledged _)

theorem worked_serveSetTarget (tag : Byte) (params : List Byte) (h : Worked settings power s0 b s) :
    Worked settings power s0 b (serveSetTarget tag params s) :=
  (worked_settleDemand s.dmu (by rfl) (by rfl) rfl rfl h).link _

theorem worked_serveConfigure (may : settings) (tag : Byte) (params : List Byte) (hs : served codeConfigure s.stc.op = true)
    (h : Worked settings power s0 b s) : Worked settings power s0 b (serveConfigure tag params s) := by
  unfold serveConfigure
  split
  · exact worked_reply _ _ _ _ h
  · next accepted =>
    exact (h.configured params may (by simpa [served] using hs) (by simpa using accepted)).settled.link _

theorem served_openSession (op : OpState) : served codeOpenSession op = decide (op = .linked) := rfl

theorem served_closeSession (op : OpState) : served codeCloseSession op = decide (op = .session) := rfl

theorem served_measureNow (op : OpState) : served codeMeasureNow op = decide (op = .session) := rfl

theorem worked_serveOpenSession (tag : Byte) (hs : served codeOpenSession s.stc.op = true)
    (h : Worked settings power s0 b s) : Worked settings power s0 b (serveOpenSession tag s) := by
  unfold serveOpenSession
  split
  · exact worked_reply _ _ _ _ h
  · next room =>
    split
    · exact worked_reply _ _ _ _ h
    · exact worked_reply _ _ _ _ (h.opened (of_decide_eq_true hs) (by simpa using room)).settled

theorem worked_serveCloseSession (tag : Byte) (hs : served codeCloseSession s.stc.op = true)
    (h : Worked settings power s0 b s) : Worked settings power s0 b (serveCloseSession tag s) :=
  worked_reply _ _ _ _ (h.departed _ _ _ (of_decide_eq_true hs) (by decide)).settled

theorem worked_serveMeasureNow (tag : Byte) (hs : served codeMeasureNow s.stc.op = true)
    (h : Worked settings power s0 b s) : Worked settings power s0 b (serveMeasureNow tag s) := by
  unfold serveMeasureNow
  dsimp only
  split
  · next hi => exact worked_reply _ _ _ _ (worked_startOwnEpoch (of_decide_eq_true hs) hi h)
  · exact worked_reply _ _ _ _ h

theorem worked_serveCalibrate (tag : Byte) (h : Worked settings power s0 b s) :
    Worked settings power s0 b (serveCalibrate tag s) :=
  (h.meter { s.mtr with cal := if s.mtr.cal = .idle then .pending else s.mtr.cal } rfl).link _

theorem worked_clearedFaults (h : Worked settings power s0 b s) : Worked settings power s0 b (clearedFaults s) :=
  worked_syncMarks (h.firstOut.episode _)

theorem worked_serveClearFault (tag : Byte) (h : Worked settings power s0 b s) :
    Worked settings power s0 b (serveClearFault tag s) := by
  unfold serveClearFault
  split
  · next ho =>
    split
    · exact worked_reply _ _ _ _ h
    · exact worked_reply _ _ _ _ (worked_enterReady
        (worked_setOp .ready (by simp [clearedFaults, ho]) (by simp [clearedFaults, ho]) (by decide) (worked_clearedFaults h)))
  · exact worked_reply _ _ _ _ (worked_clearedFaults h)

theorem worked_serveSoftReset (may : settings) (h : Worked settings power s0 b s) :
    Worked settings power s0 b (serveSoftReset s) := by
  unfold serveSoftReset
  dsimp only
  refine Worked.settled (Worked.link _ ?_)
  by_cases ho : s.stc.op = .session
  · rw [if_pos (decide_eq_true ho)]
    exact (h.departed .reset none .start ho (by decide)).reset may (by simp [(depart_spec .reset none .start s (by decide)).1])
  · rw [if_neg (by simpa using ho)]
    exact h.reset may ho

end

/-! ## Every command -/

/-- The commands that may change the settings: CONFIGURE, the two resets, and a raw transfer with the code of CONFIGURE or SOFT
RESET (R158, R169, R171). -/
def MaySet : Instr → Prop
  | .configure _ _ _ => True
  | .softReset _ _ _ => True
  | .powerOnReset _ => True
  | .unknownCode _ bs => bs.getD 0 0 = codeSoftReset ∨ bs.getD 0 0 = codeConfigure
  | _ => False

/-- The command is the loss of power and its return (R168). -/
def LosesPower (c : Instr) : Prop := ∃ m, c = .powerOnReset m

section
variable {settings power : Prop} {s0 s : State}

/-- The bytes received begin with the byte shifted in first, where one was clocked (log 12). -/
theorem received_head {clocked : Nat} (bytes : List Byte) (h : 0 < clocked) :
    (received clocked bytes).getD 0 0 = bytes.getD 0 0 := by
  obtain ⟨n, rfl⟩ : ∃ n, clocked = n + 1 := ⟨clocked - 1, by omega⟩
  cases bytes with
  | nil => simp [received, List.replicate_succ]
  | cons x xs => simp [received]

/-- The request that a code names does the work of `Worked` where its state serves it. -/
theorem worked_service {b : Bool} {code tag : Byte} {params : List Byte} {serve : State → State}
    (hserve : serviceOf code tag params = some serve) (may : code = codeSoftReset ∨ code = codeConfigure → settings)
    (ok : served code s.stc.op = true) (h : Worked settings power s0 b s) : Worked settings power s0 b (serve s) := by
  have is {f : State → State} (he : some f = some serve) (hf : Worked settings power s0 b (f s)) :
      Worked settings power s0 b (serve s) := Option.some.inj he ▸ hf
  unfold serviceOf at hserve
  by_cases hc : code = codeReadStatus
  · rw [if_pos hc] at hserve; exact is hserve (worked_serveReadStatus tag h)
  rw [if_neg hc] at hserve; clear hc
  by_cases hc : code = codeReadTrim
  · rw [if_pos hc] at hserve; exact is hserve (worked_reply _ _ _ _ h)
  rw [if_neg hc] at hserve; clear hc
  by_cases hc : code = codeSoftReset
  · rw [if_pos hc] at hserve; exact is hserve (worked_serveSoftReset (may (.inl hc)) h)
  rw [if_neg hc] at hserve; clear hc
  by_cases hc : code = codeConfigure
  · rw [if_pos hc] at hserve; exact is hserve (worked_serveConfigure (may (.inr hc)) tag params (hc ▸ ok) h)
  rw [if_neg hc] at hserve; clear hc
  by_cases hc : code = codeReadFaults
  · rw [if_pos hc] at hserve; exact is hserve (worked_reply _ _ _ _ h)
  rw [if_neg hc] at hserve; clear hc
  by_cases hc : code = codeReadSession
  · rw [if_pos hc] at hserve; exact is hserve (worked_reply _ _ _ _ h)
  rw [if_neg hc] at hserve; clear hc
  by_cases hc : code = codeAckSession
  · rw [if_pos hc] at hserve; exact is hserve (worked_serveAckSession tag params h)
  rw [if_neg hc] at hserve; clear hc
  by_cases hc : code = codeReadTrace
  · rw [if_pos hc] at hserve; exact is hserve (worked_serveReadTrace tag h)
  rw [if_neg hc] at hserve; clear hc
  by_cases hc : code = codeSetTarget
  · rw [if_pos hc] at hserve; exact is hserve (worked_serveSetTarget tag params h)
  rw [if_neg hc] at hserve; clear hc
  by_cases hc : code = codeReadPeers
  · rw [if_pos hc] at hserve; exact is hserve (worked_reply _ _ _ _ h)
  rw [if_neg hc] at hserve; clear hc
  by_cases hc : code = codeOpenSession
  · rw [if_pos hc] at hserve; exact is hserve (worked_serveOpenSession tag (hc ▸ ok) h)
  rw [if_neg hc] at hserve; clear hc
  by_cases hc : code = codeCloseSession
  · rw [if_pos hc] at hserve; exact is hserve (worked_serveCloseSession tag (hc ▸ ok) h)
  rw [if_neg hc] at hserve; clear hc
  by_cases hc : code = codeMeasureNow
  · rw [if_pos hc] at hserve; exact is hserve (worked_serveMeasureNow tag (hc ▸ ok) h)
  rw [if_neg hc] at hserve; clear hc
  by_cases hc : code = codeCalibrate
  · rw [if_pos hc] at hserve; exact is hserve (worked_serveCalibrate tag h)
  rw [if_neg hc] at hserve; clear hc
  by_cases hc : code = codeClearFault
  · rw [if_pos hc] at hserve; exact is hserve (worked_serveClearFault tag h)
  rw [if_neg hc] at hserve; clear hc
  cases hserve

theorem worked_dealWith {b : Bool} (x : Txn) (bs : List Byte)
    (may : 0 < bs.length → bs.getD 0 0 = codeSoftReset ∨ bs.getD 0 0 = codeConfigure → settings)
    (h : Worked settings power s0 b s) : Worked settings power s0 b (dealWith x bs s) := by
  unfold dealWith
  dsimp only
  split
  · exact h
  next whole =>
  have hpos : 0 < bs.length := by omega
  split
  · exact h
  split
  · exact h
  split
  · exact h
  split
  · exact worked_reply _ _ _ _ h
  · next serve hserve => exact worked_handOver (worked_service hserve (may hpos)) h

theorem worked_takeRaw {b : Bool} (bytes : List Byte)
    (may : bytes.getD 0 0 = codeSoftReset ∨ bytes.getD 0 0 = codeConfigure → settings) (h : Worked settings power s0 b s) :
    Worked settings power s0 b (takeRaw bytes s) := by
  unfold takeRaw
  split
  · exact h
  · next x _ =>
    refine worked_dealWith x _ (fun hpos hc => may ?_) (h.link _)
    have hclk : 0 < x.clocked := by
      by_contra hz
      simp [received, Nat.eq_zero_of_not_pos hz] at hpos
    rwa [received_head bytes hclk] at hc

end

/-- Every command reaches its next state by the operations of `Worked`; the settings change only where the command may set them,
and the power is lost at a power-on reset alone. -/
theorem exec_worked {c : Instr} {s t : State} (h : exec c s = .next t) : Worked (MaySet c) (LosesPower c) s true t := by
  have reached := Worked.start (settings := MaySet c) (power := LosesPower c) (s0 := s)
  cases c with
  | transaction m clocked => cases h; exact worked_event m (fun h => h.link _) reached
  | nop m => cases h; exact worked_event m (fun h => h.link _) reached
  | unknownCode m bytes => cases h; exact worked_event m (fun h => worked_takeRaw bytes id h) reached
  | readStatus m tag params => cases h; exact worked_event m (worked_takeRequest fun _ _ => worked_serveReadStatus tag) reached
  | readTrim m tag params => cases h; exact worked_event m (worked_takeRequest fun _ _ h => h.link _) reached
  | softReset m tag params => cases h; exact worked_event m (worked_takeRequest fun _ _ => worked_serveSoftReset trivial) reached
  | configure m tag params =>
    cases h; exact worked_event m (worked_takeRequest fun _ => worked_serveConfigure trivial tag params) reached
  | readFaults m tag params => cases h; exact worked_event m (worked_takeRequest fun _ _ h => h.link _) reached
  | readSession m tag params => cases h; exact worked_event m (worked_takeRequest fun _ _ h => h.link _) reached
  | ackSession m tag params =>
    cases h; exact worked_event m (worked_takeRequest fun _ _ => worked_serveAckSession tag params) reached
  | readTrace m tag params => cases h; exact worked_event m (worked_takeRequest fun _ _ => worked_serveReadTrace tag) reached
  | setTarget m tag params =>
    cases h; exact worked_event m (worked_takeRequest fun _ _ => worked_serveSetTarget tag params) reached
  | readPeers m tag params => cases h; exact worked_event m (worked_takeRequest fun _ _ h => h.link _) reached
  | openSession m tag params => cases h; exact worked_event m (worked_takeRequest fun _ => worked_serveOpenSession tag) reached
  | closeSession m tag params => cases h; exact worked_event m (worked_takeRequest fun _ => worked_serveCloseSession tag) reached
  | measureNow m tag params => cases h; exact worked_event m (worked_takeRequest fun _ => worked_serveMeasureNow tag) reached
  | calibrateMeter m tag params => cases h; exact worked_event m (worked_takeRequest fun _ _ => worked_serveCalibrate tag) reached
  | clearFault m tag params => cases h; exact worked_event m (worked_takeRequest fun _ _ => worked_serveClearFault tag) reached
  | powerOnReset m => cases h; exact worked_event m (fun h => h.powerLost trivial ⟨m, rfl⟩) reached
  | announceArrival m x f => cases h; exact worked_event m (worked_arrive _ _) reached
  | epochArrival m x n half => cases h; exact worked_event m (worked_arrive _ _) reached
  | findingArrival m x n result r v => cases h; exact worked_event m (worked_arrive _ _) reached
  | claimArrival m x n rb => cases h; exact worked_event m (worked_arrive _ _) reached
  | leaveArrival m x => cases h; exact worked_event m (worked_arrive _ _) reached
  | receiveDiscard m begun bits => cases h; exact worked_event m (worked_receiveBits begun bits) reached
  | attemptStart m => cases h; exact worked_event m.moment (worked_attemptStarts m.recessive) reached
  | announceSent m => cases h; exact worked_event m (worked_frameSent _ (worked_announceSent _)) reached
  | epochSent m => cases h; exact worked_event m (worked_frameSent _ worked_epochSent) reached
  | findingSent m => cases h; exact worked_event m (worked_frameSent _ id) reached
  | claimSent m => cases h; exact worked_event m (worked_frameSent _ worked_emptyIfDone) reached
  | leaveSent m => cases h; exact worked_event m (worked_frameSent _ worked_emptyIfDone) reached
  | attemptFailed m => cases h; exact worked_event m worked_attemptFails reached
  | backoffEnd m => cases h; exact worked_event m worked_backoffEnds reached
  | staleThreshold m code => cases h; exact worked_event m (worked_goStale code) reached
  | removalThreshold m code => cases h; exact worked_event m (worked_removeSilent code) reached
  | unlistedPeerTimerExpiry m => cases h; exact worked_event m worked_unlistedEnds reached
  | holdTimerExpiry m => cases h; exact worked_event m worked_holdTimerEnds reached
  | announceTimerExpiry m => cases h; exact worked_event m worked_announceTimerEnds reached
  | listenWindowExpiry m => cases h; exact worked_event m worked_listenWindowEnds reached
  | staggerTimerExpiry m => cases h; exact worked_eventTested m _ worked_staggerEnds reached
  | idleTimerExpiry m => cases h; exact worked_event m worked_idleEnds reached
  | epochTimerExpiry m => cases h; exact worked_event m worked_epochTimerEnds reached
  | lossDeadline m => cases h; exact worked_event m worked_lossDeadlineEnds reached
  | claimWindowExpiry m => cases h; exact worked_event m worked_claimWindowExpires reached
  | doseLimit m z => cases h; exact worked_event m (worked_doseLimitReached z) reached
  | cycleSample m u ib => cases h; exact worked_event m (worked_samplePoint u ib) reached
  | halfEnd m u ib => cases h; exact worked_event m (worked_halfEnds u ib) reached
  | meterSample m x => cases h; exact worked_event m (worked_sampleCompletes x) reached
  | intervalEnd m x => cases h; exact worked_event m (worked_sampleCompletes x) reached
  | busPresent m x => cases h; exact worked_event m (worked_sampleCompletes x) reached
  | busLost m x => cases h; exact worked_event m (worked_sampleCompletes x) reached
  | overdraw m x => cases h; exact worked_event m (worked_sampleCompletes x) reached
  | temperatureConversion m z c => cases h; exact worked_eventTested m _ (worked_conversion z c) reached
  | converterFaultInput m asserted => cases h; exact worked_event m (worked_converterInput asserted) reached

/-- A step is the work of a command on the state with its queue shortened, or one tick of time on the state itself. -/
theorem step_worked {s t : State} (h : step s = .next t) : ∃ settings power rest, Worked settings power { s with pending := rest } true t := by
  unfold step at h
  split at h
  · exact ⟨_, _, _, exec_worked h⟩
  · unfold idleStep at h
    split at h
    · exact ⟨_, _, s.pending, exec_worked h⟩
    · cases h
      exact ⟨True, True, s.pending, worked_elapse _ .start⟩

end Sys2Proof.Proofs
end

section
/-! PROOF. The invariants of the station control and its simple neighbours, each by induction over what the work of an event can
do (`Worked`): the bus contactor, the quiet outside SESSION, the injection, the rings, the queue, the trim, the settings and the
retained counts. -/

namespace Sys2Proof.Proofs
open Sys2Proof.Machine

section
variable {settings power : Prop} {s0 s : State} {b : Bool}

/-! ## What the composite operations leave the station in -/

theorem openedSession_stc (s : State) :
    (openedSession s).stc = { s.stc with op := .session, listenWindow := none, contactor := true } := by
  simp [openedSession, setOp]

theorem configured_stc (c : Configured) (s : State) : (configured c s).stc =
    { s.stc with op := .ready, listenWindow := none, clockSet := true, clockMicros := c.clockBase * 1000000 } := by
  simp [configured, setOp, emptyTable]

/-! ## The bus contactor -/

theorem contactorSafe_congr {s t : State} (op : t.stc.op = s.stc.op) (contactor : t.stc.contactor = s.stc.contactor)
    (h : ContactorSafe s) : ContactorSafe t := by
  unfold ContactorSafe
  rw [op, contactor]
  exact h

theorem contactorSafe_worked (h : Worked settings power s0 b s) (h0 : ContactorSafe s0) : ContactorSafe s := by
  induction h with
  | start => exact h0
  | station c _ noSession _ dest contactor ih =>
    simp only [ContactorSafe, noSession, decide_false] at ih
    simp [ContactorSafe, dest, contactor, ih]
  | departed reason code dest _ _ leaves _ => simp [ContactorSafe, (depart_spec reason code dest _ leaves).1, leaves]
  | opened => simp [ContactorSafe, openedSession_stc]
  | configured bs _ _ atStart _ ih =>
    simp only [ContactorSafe, atStart] at ih
    simp [ContactorSafe, configured_stc, ih]
  | reset => rfl
  | powerLost => rfl
  | time d _ ih => exact ih
  | _ => rename_i ih; exact contactorSafe_congr (by simp) (by simp) ih

/-- Settles O7: every operation of an event keeps the contactor's rule (`contactorSafe_worked`). -/
theorem contactorInvariant : Obligations.ContactorInvariant := by
  intro s t safe run
  obtain ⟨_, _, _, worked⟩ := step_worked run
  exact contactorSafe_worked worked safe

/-! ## Outside SESSION nothing is drawn -/

theorem applyGrant_enable (u : Shu) : u.applyGrant.enable = u.enable ∧ u.applyGrant.setpoint = u.setpoint := by
  unfold Shu.applyGrant Shu.steady
  dsimp only
  repeat' split
  all_goals exact ⟨rfl, rfl⟩

theorem regrant_enable (s : State) : (regrant s).shu.enable = s.shu.enable := by
  rw [regrant_shu, (applyGrant_enable _).1]

theorem holdTest_enable (s : State) : (holdTest s).shu.enable = s.shu.enable := by
  rw [holdTest_shu]
  split <;> rfl

/-- The hold test raises no limit above the intent (R40). -/
theorem holdTest_of_intent_zero {s : State} (hl : s.shu.limit = 0) (hi : s.shu.intent = 0) :
    (holdTest s).shu.limit = 0 ∧ (holdTest s).shu.intent = 0 := by
  rw [holdTest_shu]
  split
  · simp [Shu.complete, Shu.steady, hi]
  · exact ⟨hl, hi⟩

/-- A split of a state in which nothing may be drawn and the converter is off is quiet. -/
theorem quietSafe_resplit {s : State} (h : s.stc.op ≠ .session → s.shu.limit = 0 ∧ s.shu.intent = 0 ∧ s.shu.enable = false) :
    QuietSafe (resplit s) := by
  intro out
  obtain ⟨hl, hi, he⟩ := h (by simpa using out)
  obtain ⟨p1, p2, p3, p4, p5⟩ := resplit_quiet hl
  exact ⟨p1, p2.trans hi, p3, he, p4, p5⟩

theorem quietSafe_regrant {s : State} (h : QuietSafe s) : QuietSafe (resplit (regrant s)) := by
  refine quietSafe_resplit fun out => ?_
  simp only [regrant_stc] at out
  obtain ⟨g1, g2, _, _⟩ := regrant_quiet out
  exact ⟨g1, g2, by rw [regrant_enable]; exact (h out).2.2.2.1⟩

theorem quietSafe_settleTable {s : State} (h : QuietSafe s) : QuietSafe (settleTable s) := by
  refine quietSafe_resplit fun out => ?_
  simp only [holdTest_stc, regrant_stc] at out
  obtain ⟨g1, g2, _, _⟩ := regrant_quiet out
  obtain ⟨l, i⟩ := holdTest_of_intent_zero g1 g2
  exact ⟨l, i, by rw [holdTest_enable, regrant_enable]; exact (h out).2.2.2.1⟩

theorem quietSafe_worked (h : Worked settings power s0 b s) (h0 : QuietSafe s0) : QuietSafe s := by
  induction h with
  | start => exact h0
  | share u _ kept ih =>
    obtain ⟨_, hl, hi, _, _, _, _, he, hp⟩ := kept
    intro out
    obtain ⟨l, i, p, e, c, a⟩ := ih out
    exact ⟨hl.trans l, hi.trans i, by show u.setpoint = 0; omega, he.trans e, c, a⟩
  | demand d _ charger heater ih =>
    intro out
    obtain ⟨l, i, p, e, c, a⟩ := ih out
    exact ⟨l, i, p, e, charger.trans c, heater.trans a⟩
  | demandKept d _ charger heater _ _ ih =>
    intro out
    obtain ⟨l, i, p, e, c, a⟩ := ih out
    exact ⟨l, i, p, e, charger.trans c, heater.trans a⟩
  | regrant _ ih => exact quietSafe_regrant ih
  | table _ ih => exact quietSafe_settleTable ih
  | split _ ih =>
    exact quietSafe_resplit fun out => ⟨(ih out).1, (ih out).2.1, (ih out).2.2.2.1⟩
  | holdTest _ ih =>
    refine quietSafe_resplit fun out => ?_
    simp only [holdTest_stc] at out
    obtain ⟨l, i⟩ := holdTest_of_intent_zero (ih out).1 (ih out).2.1
    exact ⟨l, i, by rw [holdTest_enable]; exact (ih out).2.2.2.1⟩
  | station c _ noSession _ _ _ ih => exact fun _ => ih noSession
  | departed reason code dest _ _ leaves _ =>
    obtain ⟨_, _, _, _, l, i, p, e, c, a, _⟩ := depart_spec reason code dest _ leaves
    exact fun _ => ⟨l, i, p, e, c, a⟩
  | opened => exact fun out => absurd (by rw [openedSession_stc]) out
  | configured bs _ _ atStart _ ih =>
    exact quietSafe_regrant fun _ => ih (by simp [atStart])
  | reset => exact fun _ => ⟨rfl, rfl, rfl, rfl, rfl, rfl⟩
  | powerLost => exact fun _ => ⟨rfl, rfl, rfl, rfl, rfl, rfl⟩
  | _ => rename_i ih; exact ih

/-- Settles O8: every operation of an event keeps the station quiet outside SESSION (`quietSafe_worked`). -/
theorem quietInvariant : Obligations.QuietInvariant := by
  intro s t safe run
  obtain ⟨_, _, _, worked⟩ := step_worked run
  exact quietSafe_worked worked safe

/-! ## The injection -/

theorem openedSession_ins (s : State) : (openedSession s).ins = s.ins.enterSession s.now (clock s) s.cfg := by
  simp only [openedSession, resplit_ins, regrant_ins, reweigh_ins, refreshDemand_ins, rereadDelivered_ins]
  rfl

theorem injectionSafe_worked (h : Worked settings power s0 b s) (h0 : InjectionSafe s0) : InjectionSafe s := by
  induction h with
  | start => exact h0
  | epoch i _ kept ih =>
    refine ⟨fun busy => ?_, kept.2 ih.2⟩
    rcases kept.1 busy with busy | session
    · exact ih.1 busy
    · exact session
  | station c _ noSession _ _ _ ih => exact ⟨fun busy => absurd (ih.1 busy) noSession, ih.2⟩
  | @departed _ s reason code dest _ _ leaves _ =>
    have idle := (depart_spec reason code dest s leaves).2.1
    refine ⟨fun busy => absurd ?_ busy, fun on => absurd ?_ on⟩ <;> rw [idle] <;> rfl
  | @opened _ s _ _ _ ih =>
    exact ⟨fun _ => by rw [openedSession_stc], by rw [openedSession_ins]; exact ih.2⟩
  | @configured _ s bs _ _ atStart _ ih =>
    have same : (configured (configOf bs) s).ins = s.ins := by simp [configured]
    refine ⟨fun busy => ?_, by rw [same]; exact ih.2⟩
    rw [same] at busy
    exact absurd (ih.1 busy) (by simp [atStart])
  | reset => exact ⟨fun busy => absurd rfl busy, fun on => absurd rfl on⟩
  | powerLost => exact ⟨fun busy => absurd rfl busy, fun on => absurd rfl on⟩
  | time d _ ih => exact ih
  | _ => rename_i ih; simpa [InjectionSafe] using ih

/-- Settles O9: every operation keeps the injection's rule (`injectionSafe_worked`), and the contactor is closed in SESSION, where
all epoch work goes on. -/
theorem injectionInvariant : Obligations.InjectionInvariant := by
  intro s t contactor safe run
  obtain ⟨_, _, _, worked⟩ := step_worked run
  have injection := injectionSafe_worked worked safe
  have closed := contactorSafe_worked worked contactor
  refine ⟨injection, fun on => ?_⟩
  have session := injection.1 (by simp [injection.2 on])
  rw [closed, session]
  rfl

/-! ## The rings -/

theorem enter_length {cap : Nat} {α : Type} (xs : List α) (x : α) (h : xs.length ≤ cap) (hc : 0 < cap) :
    ((if xs.length < cap then xs else xs.drop 1) ++ [x]).length ≤ cap := by
  split <;> simp <;> omega

theorem failed_dropCount (now : Nat) (a : Attempt) (d : Dli) (h : d.dropCount ≤ Config.countTop) :
    (d.failed now a).dropCount ≤ Config.countTop := by
  unfold Dli.failed Dli.startBackoff
  dsimp only
  split
  · exact Nat.min_le_right _ _
  · exact h

theorem regrant_dropCount (s : State) : (regrant s).dli.dropCount = s.dli.dropCount := by
  rw [regrant_dli]
  split
  · exact (queueFrame_times _ _ _ _).2.2.2.2.2.2.2
  · rfl

theorem holdTest_dropCount (s : State) : (holdTest s).dli.dropCount = s.dli.dropCount := by
  rw [holdTest_dli]
  split
  · exact (queueFrame_times _ _ _ _).2.2.2.2.2.2.2
  · rfl

theorem depart_dropCount (reason : CloseReason) (code : Option FaultCode) (dest : OpState) (s : State) :
    (depart reason code dest s).dli.dropCount = s.dli.dropCount := by
  have hd : (departing reason code dest s).dli = s.dli.withdrawEpoch s.now := by
    show (closeSession reason code s).dli.withdrawEpoch (closeSession reason code s).now = _
    simp
  rw [depart_eq]
  show (regrant (departing reason code dest s)).dli.dropCount = _
  rw [regrant_dropCount, hd, withdrawEpoch_dropCount]

theorem ringsSafe_worked (h : Worked settings power s0 b s) (h0 : RingsSafe s0) : RingsSafe s := by
  induction h with
  | start => exact h0
  | fault e _ ih =>
    obtain ⟨history, trace, missed, drops⟩ := ih
    exact ⟨enter_length _ _ history (by decide), trace, missed, drops⟩
  | traceEntry e _ ih =>
    obtain ⟨history, trace, missed, drops⟩ := ih
    unfold RingsSafe Trc.enter
    dsimp only
    split
    · exact ⟨history, trace, Nat.min_le_right _ _, drops⟩
    · exact ⟨history, enter_length _ _ trace (by decide), missed, drops⟩
  | traceRead _ ih =>
    obtain ⟨history, trace, _, drops⟩ := ih
    exact ⟨history, trace, Nat.zero_le _, drops⟩
  | line d _ same ih =>
    obtain ⟨history, trace, missed, drops⟩ := ih
    exact ⟨history, trace, missed, same ▸ drops⟩
  | attemptFailed a _ ih =>
    obtain ⟨history, trace, missed, drops⟩ := ih
    exact ⟨history, trace, missed, failed_dropCount _ _ _ drops⟩
  | regrant _ ih => simpa [RingsSafe, regrant_dropCount] using ih
  | table _ ih => simpa [RingsSafe, settleTable, holdTest_dropCount, regrant_dropCount] using ih
  | holdTest _ ih => simpa [RingsSafe, holdTest_dropCount] using ih
  | departed reason code dest _ _ leaves ih => simpa [RingsSafe, depart_dropCount] using ih
  | opened _ _ _ ih => simpa [RingsSafe, openedSession, regrant_dropCount, setOp] using ih
  | configured bs _ _ _ _ ih => simpa [RingsSafe, configured, regrant_dropCount, setOp, emptyTable] using ih
  | reset _ _ _ ih =>
    obtain ⟨history, trace, missed, _⟩ := ih
    exact ⟨history, trace, missed, Nat.zero_le _⟩
  | powerLost _ _ _ ih => exact ⟨ih.1, Nat.zero_le _, Nat.zero_le _, Nat.zero_le _⟩
  | _ => rename_i ih; exact ih

/-- Settles O12: every operation of an event keeps the rings within their capacities (`ringsSafe_worked`). -/
theorem ringsInvariant : Obligations.RingsInvariant := by
  intro s t safe run
  obtain ⟨_, _, _, worked⟩ := step_worked run
  exact ringsSafe_worked worked safe

/-! ## What commands leave alone -/

theorem pending_worked (h : Worked settings power s0 b s) : s.pending = s0.pending := by
  induction h with
  | start => rfl
  | opened _ _ _ ih => simpa [openedSession] using ih
  | configured bs _ _ _ _ ih => simpa [configured] using ih
  | _ => rename_i ih; simpa using ih

/-- Settles O2: no operation of an event touches the queue (`pending_worked`). -/
theorem execKeepsQueue : Obligations.ExecKeepsQueue := fun _ _ _ run => pending_worked (exec_worked run)

theorem trm_worked (h : Worked settings power s0 b s) (kept : ¬ power) : s.trm = s0.trm := by
  induction h with
  | start => rfl
  | opened _ _ _ ih => simpa [openedSession] using ih
  | configured bs _ _ _ _ ih => simpa [configured] using ih
  | powerLost _ _ lost _ => exact absurd lost kept
  | _ => rename_i ih; simpa using ih

/-- Settles O4: of all operations the loss of power alone reads the Trim Store (`trm_worked`), and a power-on reset alone is one. -/
theorem trimReadAtPowerOnOnly : Obligations.TrimReadAtPowerOnOnly := fun _ _ _ run other =>
  trm_worked (exec_worked run) fun ⟨m, hm⟩ => other m hm

theorem cfg_worked (h : Worked settings power s0 b s) (kept : ¬ settings) : s.cfg = s0.cfg := by
  induction h with
  | start => rfl
  | opened _ _ _ ih => simpa [openedSession] using ih
  | configured _ _ may _ _ _ => exact absurd may kept
  | reset _ may _ _ => exact absurd may kept
  | powerLost _ may _ _ => exact absurd may kept
  | _ => rename_i ih; simpa using ih

/-- Settles O6: of all operations CONFIGURE and the resets alone change the settings (`cfg_worked`), and the commands excluded are
those that may bring one (`MaySet`). -/
theorem settingsChangeAtConfigureAndReset : Obligations.SettingsChangeAtConfigureAndReset := by
  intro c s t run noPowerOn noConfigure noSoftReset noRaw
  refine cfg_worked (exec_worked run) fun may => ?_
  cases c with
  | configure m g p => exact noConfigure m g p rfl
  | softReset m g p => exact noSoftReset m g p rfl
  | powerOnReset m => exact noPowerOn m rfl
  | unknownCode m bs =>
    obtain ⟨n3, n4⟩ := noRaw m bs rfl
    rcases may with h | h
    · exact n3 h
    · exact n4 h
  | _ => exact may

/-! ## The retained counts -/

theorem closeSession_lifetime (reason : CloseReason) (code : Option FaultCode) (s : State) :
    (closeSession reason code s).mtr.lifetime = (partialInterval s).mtr.lifetime := by
  have abandoned (x : State) : (abandonSlot x).mtr.lifetime = x.mtr.lifetime := by
    unfold abandonSlot
    split <;> simp
  show (abandonSlot _).mtr.lifetime = _
  rw [abandoned]
  rfl

theorem partialInterval_lifetime (s : State) : s.mtr.lifetime ≤ (partialInterval s).mtr.lifetime := by
  unfold partialInterval
  split
  · exact Nat.le_refl _
  · exact Nat.le_add_right _ _

theorem closeSession_ses (reason : CloseReason) (code : Option FaultCode) (s : State) :
    (closeSession reason code s).ses = (partialInterval s).ses.close (clock s) (partialInterval s).mtr.lifetime
      s.shu.peak reason code := by
  show (abandonSlot _).ses = _
  simp [clock]

theorem close_nextNumber (clock lifetime peak : Nat) (reason : CloseReason) (code : Option FaultCode) (r : Ses) :
    (r.close clock lifetime peak reason code).nextNumber = r.nextNumber := by
  unfold Ses.close
  split <;> rfl

theorem partialInterval_nextNumber (s : State) : (partialInterval s).ses.nextNumber = s.ses.nextNumber := by
  unfold partialInterval
  split <;> rfl

theorem closeSnapshot_nextNumber (lifetime : Nat) (r : Ses) : (r.closeSnapshot lifetime).nextNumber = r.nextNumber := by
  unfold Ses.closeSnapshot
  split <;> rfl

theorem ack_nextNumber (n : Nat) (r : Ses) : (r.ack n).nextNumber = r.nextNumber := by
  unfold Ses.ack
  split <;> rfl

theorem openedSession_ses (s : State) :
    (openedSession s).ses = s.ses.openSession s.cfg.stationCode s.cfg.depotCode (clock s) s.mtr.lifetime := by
  simp [openedSession]

theorem openedSession_lifetime (s : State) : (openedSession s).mtr.lifetime = s.mtr.lifetime := by
  simp [openedSession, Mtr.openSession]

theorem retainedCounts_worked (h : Worked settings power s0 b s) :
    s0.mtr.lifetime ≤ s.mtr.lifetime ∧ s0.ses.nextNumber ≤ s.ses.nextNumber := by
  induction h with
  | start => exact ⟨Nat.le_refl _, Nat.le_refl _⟩
  | meter m _ same ih => exact ⟨same ▸ ih.1, ih.2⟩
  | @departed _ s reason code dest _ _ leaves ih =>
    obtain ⟨_, _, hses, hmtr, _⟩ := depart_spec reason code dest s leaves
    refine ⟨?_, ?_⟩
    · rw [hmtr, closeSession_lifetime]
      exact ih.1.trans (partialInterval_lifetime s)
    · rw [hses, closeSession_ses, close_nextNumber, partialInterval_nextNumber]
      exact ih.2
  | opened _ _ _ ih =>
    rw [openedSession_ses, openedSession_lifetime]
    exact ⟨ih.1, ih.2.trans (Nat.le_succ _)⟩
  | credited _ ih => exact ⟨ih.1.trans (Nat.le_add_right _ _), ih.2⟩
  | acknowledged n _ ih => exact ⟨ih.1, (ack_nextNumber n _).symm ▸ ih.2⟩
  | configured bs _ _ _ _ ih => simpa [configured, Mtr.enterReady] using ih
  | reset _ _ _ ih => exact ih
  | powerLost _ _ _ ih => exact ⟨ih.1, ih.2.trans (closeSnapshot_nextNumber _ _).ge⟩
  | _ => rename_i ih; simpa using ih

/-- Settles O5: no operation of an event lowers a retained count (`retainedCounts_worked`). -/
theorem retainedCountsNeverFall : Obligations.RetainedCountsNeverFall := fun _ _ _ run =>
  retainedCounts_worked (exec_worked run)

end

end Sys2Proof.Proofs
end

section
/-! PROOF. The invariants of the session store and of the peer table, by induction over what the work of an event can do. -/

namespace Sys2Proof.Proofs
open Sys2Proof.Machine

section
variable {settings power : Prop} {s0 s : State} {b : Bool}

/-! ## The session store -/

/-- The part of `SessionSafe` that speaks of the log, the numbers and the readings: what a close needs and what it leaves. -/
def LogSafe (lifetime : Nat) (r : Ses) : Prop :=
  r.log.length ≤ Config.logCapacity ∧ (r.openRecord.isSome = true → r.log.length < Config.logCapacity) ∧
    (r.log.map (fun c => c.record.number)).Pairwise (fun a b => a < b) ∧
    (∀ c ∈ r.log, c.record.number < r.nextNumber ∧ c.closing = c.record.opening + c.record.counters.total) ∧
    ∀ o, r.openRecord = some o → o.number < r.nextNumber ∧ (∀ c ∈ r.log, c.record.number < o.number) ∧
      lifetime = o.opening + o.counters.total

theorem sessionSafe_iff (s : State) : SessionSafe s ↔ s.ses.openRecord.isSome = decide (s.stc.op = .session) ∧
    s.ses.snapshot.map (fun p => (p.record, p.lifetime)) = s.ses.openRecord.map (fun o => (o, s.mtr.lifetime)) ∧
    LogSafe s.mtr.lifetime s.ses := Iff.rfl

/-- A record appended by a close keeps the log's order, and its readings agree (R138, R140). -/
theorem logSafe_append {lifetime : Nat} {r : Ses} {o : OpenRecord} (safe : LogSafe lifetime r) (hopen : r.openRecord = some o)
    (c : ClosedRecord) (number : c.record.number = o.number) (opening : c.record.opening = o.opening)
    (counters : c.record.counters = o.counters) (closing : c.closing = lifetime) :
    LogSafe lifetime { r with openRecord := none, snapshot := none, log := r.log ++ [c] } := by
  obtain ⟨_, room, ascend, readings, record⟩ := safe
  obtain ⟨below, last, reading⟩ := record o hopen
  refine ⟨?_, nofun, ?_, ?_, nofun⟩
  · have := room (by rw [hopen]; rfl)
    rw [List.length_append]
    exact this
  · rw [List.map_append, List.pairwise_append]
    refine ⟨ascend, List.pairwise_singleton _ _, fun a ha x hx => ?_⟩
    obtain ⟨d, hd, rfl⟩ := List.mem_map.1 ha
    simp only [List.map_cons, List.map_nil, List.mem_singleton] at hx
    rw [hx, number]
    exact last d hd
  · intro d hd
    rcases List.mem_append.1 hd with hd | hd
    · exact readings d hd
    · rw [List.mem_singleton.1 hd, number, opening, counters, closing]
      exact ⟨below, reading⟩

/-- A change of the open record that moves its counters by what the lifetime counter gains keeps the log's rules (R128). -/
theorem logSafe_map {lifetime gain : Nat} {r : Ses} (f : OpenRecord → OpenRecord) (number : ∀ o, (f o).number = o.number)
    (opening : ∀ o, (f o).opening = o.opening)
    (counters : ∀ o, r.openRecord = some o → (f o).counters.total = o.counters.total + gain)
    (snapshot : Option Snapshot) (safe : LogSafe lifetime r) :
    LogSafe (lifetime + gain) { r with openRecord := r.openRecord.map f, snapshot := snapshot } := by
  obtain ⟨length, room, ascend, readings, record⟩ := safe
  refine ⟨length, fun h => room (by simpa using h), ascend, readings, fun o' h => ?_⟩
  obtain ⟨o, ho, rfl⟩ := Option.map_eq_some_iff.1 h
  obtain ⟨below, last, reading⟩ := record o ho
  rw [number, opening, counters o ho]
  exact ⟨below, last, by omega⟩

theorem add_total (band : Band) (heat charge : Nat) (c : Counters) :
    (c.add band heat charge).total = c.total + (heat + charge) := by
  cases band <;> simp only [Counters.add, Counters.total] <;> omega

/-- The interval credited: the counters rise by what the lifetime counter rises by (R126, R128). -/
theorem logSafe_credit {lifetime : Nat} {r : Ses} (i : Interval) (safe : LogSafe lifetime r) :
    LogSafe (lifetime + creditTotal i r.openRecord) { r with openRecord := r.openRecord.map (OpenRecord.credit i) } := by
  refine logSafe_map (OpenRecord.credit i) (fun _ => rfl) (fun _ => rfl) (fun o ho => ?_) r.snapshot safe
  rw [ho]
  exact add_total _ _ _ _

theorem logSafe_partialInterval (safe : LogSafe s.mtr.lifetime s.ses) :
    LogSafe (partialInterval s).mtr.lifetime (partialInterval s).ses ∧
      (partialInterval s).ses.openRecord.isSome = s.ses.openRecord.isSome := by
  unfold partialInterval
  split
  · exact ⟨safe, rfl⟩
  · exact ⟨logSafe_credit _ safe, by simp [creditInterval]⟩

/-- A close in a session empties record and snapshot and keeps the log's rules (R138). -/
theorem sessionSafe_depart {reason : CloseReason} {code : Option FaultCode} {dest : OpState} (safe : SessionSafe s)
    (session : s.stc.op = .session) (leaves : dest ≠ .session) : SessionSafe (depart reason code dest s) := by
  obtain ⟨hopen, _, logged⟩ := (sessionSafe_iff s).1 safe
  obtain ⟨loggedNow, same⟩ := logSafe_partialInterval logged
  obtain ⟨hstc, _, hses, hmtr, _⟩ := depart_spec reason code dest s leaves
  obtain ⟨o, ho⟩ := Option.isSome_iff_exists.1 (same.trans (hopen.trans (decide_eq_true session)))
  rw [sessionSafe_iff, hstc, hses, hmtr, closeSession_lifetime, closeSession_ses]
  unfold Ses.close
  rw [ho]
  exact ⟨(decide_eq_false leaves).symm, rfl, logSafe_append loggedNow ho _ rfl rfl rfl rfl⟩

theorem sessionSafe_opened (safe : SessionSafe s) (room : s.ses.hasRoom s.mtr.lifetime = true) : SessionSafe (openedSession s) := by
  obtain ⟨_, _, length, _, ascend, readings, _⟩ := safe
  obtain ⟨fits, _, _⟩ := of_decide_eq_true room
  rw [sessionSafe_iff, openedSession_stc, openedSession_ses, openedSession_lifetime]
  refine ⟨rfl, rfl, length, fun _ => fits, ascend, fun c hc => ⟨(readings c hc).1.trans (Nat.lt_succ_self _), (readings c hc).2⟩,
    fun o ho => ?_⟩
  cases ho
  exact ⟨Nat.lt_succ_self _, fun c hc => (readings c hc).1, rfl⟩

theorem sessionSafe_credited (safe : SessionSafe s) : SessionSafe (writeSnapshot (creditInterval s)) := by
  obtain ⟨hopen, _, logged⟩ := (sessionSafe_iff s).1 safe
  refine (sessionSafe_iff _).2 ⟨by simpa [writeSnapshot, creditInterval] using hopen, ?_, ?_⟩
  · simp [writeSnapshot, creditInterval, Function.comp_def, snapshotOf]
  · exact logSafe_map (gain := 0) (fun o => { o with peak := s.shu.peak }) (fun _ => rfl) (fun _ => rfl) (fun _ _ => rfl) _
      (logSafe_credit s.mtr.interval logged)

theorem ack_cases (n : Nat) (r : Ses) : r.ack n = r ∨ r.ack n = { r with log := r.log.drop 1 } := by
  unfold Ses.ack
  split
  · exact .inr rfl
  · exact .inl rfl

theorem sessionSafe_ack (n : Nat) (safe : SessionSafe s) : SessionSafe { s with ses := s.ses.ack n } := by
  rcases ack_cases n s.ses with same | dropped
  · rw [same]; exact safe
  · rw [dropped]
    obtain ⟨hopen, snapshot, length, room, ascend, readings, record⟩ := safe
    have shorter : (s.ses.log.drop 1).length ≤ s.ses.log.length := by simp
    refine ⟨hopen, snapshot, shorter.trans length, fun h => shorter.trans_lt (room h), ?_,
      fun c hc => readings c (List.mem_of_mem_drop hc), fun o ho => ?_⟩
    · exact ascend.sublist ((List.drop_sublist 1 _).map _)
    · obtain ⟨below, last, reading⟩ := record o ho
      exact ⟨below, fun c hc => last c (List.mem_of_mem_drop hc), reading⟩

/-- At power-on a snapshot found is closed into the log; there is one exactly where a session was open (R136, R139). -/
theorem sessionSafe_powerOn (safe : SessionSafe s) : SessionSafe (powerOn s) := by
  obtain ⟨_, snapshot, logged⟩ := (sessionSafe_iff s).1 safe
  have closed : LogSafe s.mtr.lifetime { (s.ses.closeSnapshot s.mtr.lifetime) with openRecord := none } ∧
      (s.ses.closeSnapshot s.mtr.lifetime).snapshot = none := by
    unfold Ses.closeSnapshot
    cases hp : s.ses.snapshot with
    | none =>
      have hopen : s.ses.openRecord = none := by simpa [hp] using snapshot
      obtain ⟨length, _, ascend, readings, _⟩ := logged
      exact ⟨⟨length, nofun, ascend, readings, nofun⟩, hp⟩
    | some p =>
      rw [hp] at snapshot
      obtain ⟨o, ho, he⟩ := Option.map_eq_some_iff.1 snapshot.symm
      obtain ⟨rfl, _⟩ := Prod.mk.inj he
      exact ⟨logSafe_append logged ho _ rfl rfl rfl rfl, rfl⟩
  exact (sessionSafe_iff _).2 ⟨rfl, by rw [show (powerOn s).ses.snapshot = _ from closed.2]; rfl, closed.1⟩

theorem sessionSafe_congr {s t : State} (op : t.stc.op = s.stc.op) (ses : t.ses = s.ses)
    (lifetime : t.mtr.lifetime = s.mtr.lifetime) (h : SessionSafe s) : SessionSafe t := by
  unfold SessionSafe
  rw [op, ses, lifetime]
  exact h

/-- A move between states without a session leaves the store as it was. -/
theorem sessionSafe_moved {s t : State} (out : s.stc.op ≠ .session) (op : t.stc.op ≠ .session) (ses : t.ses = s.ses)
    (lifetime : t.mtr.lifetime = s.mtr.lifetime) (h : SessionSafe s) : SessionSafe t := by
  obtain ⟨hopen, rest⟩ := h
  unfold SessionSafe
  rw [ses, lifetime]
  exact ⟨hopen.trans (by rw [decide_eq_false out, decide_eq_false op]), rest⟩

theorem sessionSafe_worked (h : Worked settings power s0 b s) (h0 : SessionSafe s0) : SessionSafe s := by
  induction h with
  | start => exact h0
  | time d _ ih => exact ih
  | @meter _ s m _ same ih => exact sessionSafe_congr (s := s) rfl rfl same ih
  | station c _ noSession _ dest _ ih => exact sessionSafe_moved noSession dest rfl rfl ih
  | departed reason code dest _ session leaves ih => exact sessionSafe_depart ih session leaves
  | opened _ _ room ih => exact sessionSafe_opened ih room
  | credited _ ih => exact sessionSafe_credited ih
  | acknowledged n _ ih => exact sessionSafe_ack n ih
  | configured bs _ _ atStart _ ih =>
    refine sessionSafe_moved (by simp [atStart]) ?_ ?_ ?_ ih
    · rw [configured_stc]; exact nofun
    · simp [configured]
    · simp [configured, Mtr.enterReady]
  | reset _ _ noSession ih => exact sessionSafe_moved noSession nofun rfl rfl ih
  | powerLost _ _ _ ih => exact sessionSafe_powerOn ih
  | _ => rename_i ih; exact sessionSafe_congr (by simp) (by simp) (by simp) ih

/-- Settles O11: every operation of an event keeps the session store's rules (`sessionSafe_worked`). -/
theorem sessionInvariant : Obligations.SessionInvariant := by
  intro s t safe run
  obtain ⟨_, _, _, worked⟩ := step_worked run
  exact sessionSafe_worked worked safe

/-! ## The peer table -/

/-- The table depends on the codes of its entries alone. -/
theorem tableSafe_iff (s : State) : TableSafe s ↔ (s.ptb.entries.map PeerEntry.code).length ≤ Config.peerCapacity ∧
    (s.ptb.entries.map PeerEntry.code).Pairwise (fun a b => a < b) ∧
    ∀ c ∈ s.ptb.entries.map PeerEntry.code, c ≠ s.cfg.stationCode := by
  simp [TableSafe]

/-- Entries of the table changed or removed, their order kept. -/
theorem tableSafe_sublist {s t : State} (h : TableSafe s)
    (codes : (t.ptb.entries.map PeerEntry.code).Sublist (s.ptb.entries.map PeerEntry.code)) (cfg : t.cfg = s.cfg) :
    TableSafe t := by
  obtain ⟨length, ascend, own⟩ := (tableSafe_iff s).1 h
  rw [tableSafe_iff, cfg]
  exact ⟨codes.length_le.trans length, ascend.sublist codes, fun c hc => own c (codes.subset hc)⟩

theorem insertEntry_length (e : PeerEntry) (es : List PeerEntry) : (insertEntry e es).length = es.length + 1 := by
  induction es with
  | nil => rfl
  | cons x xs ih =>
    unfold insertEntry
    split
    · rfl
    · simp [ih]

theorem mem_insertEntry {e x : PeerEntry} {es : List PeerEntry} : x ∈ insertEntry e es ↔ x = e ∨ x ∈ es := by
  induction es with
  | nil => simp [insertEntry]
  | cons y ys ih =>
    unfold insertEntry
    split
    · simp
    · simp only [List.mem_cons, ih]
      tauto

/-- An entry of a new code takes its place in the ascending order (R4). -/
theorem insertEntry_ascends {e : PeerEntry} {es : List PeerEntry} (absent : ∀ x ∈ es, x.code ≠ e.code)
    (h : (es.map PeerEntry.code).Pairwise (fun a b => a < b)) :
    ((insertEntry e es).map PeerEntry.code).Pairwise (fun a b => a < b) := by
  induction es with
  | nil => simp [insertEntry]
  | cons x xs ih =>
    obtain ⟨hx, hxs⟩ := List.pairwise_cons.1 h
    unfold insertEntry
    split
    · next lt =>
      refine List.pairwise_cons.2 ⟨fun c hc => ?_, h⟩
      rcases List.mem_cons.1 hc with rfl | hc
      · exact lt
      · exact lt.trans (hx c hc)
    · next ge =>
      refine List.pairwise_cons.2 ⟨fun c hc => ?_, ih (fun y hy => absent y (List.mem_cons_of_mem _ hy)) hxs⟩
      obtain ⟨y, hy, rfl⟩ := List.mem_map.1 hc
      rcases mem_insertEntry.1 hy with rfl | hy
      · have := absent x List.mem_cons_self
        omega
      · exact hx _ (List.mem_map_of_mem hy)

theorem findEntry_none_iff (code : Nat) (es : List PeerEntry) : findEntry code es = none ↔ ∀ x ∈ es, x.code ≠ code := by
  simp [findEntry]

theorem tableSafe_empty {s : State} (h : s.ptb.entries = []) : TableSafe s := by
  simp [TableSafe, h]

theorem map_code_of_plain {es fs : List PeerEntry} (h : es.map plainEntry = fs.map plainEntry) :
    es.map PeerEntry.code = fs.map PeerEntry.code := by
  have := congrArg (List.map PeerEntry.code) h
  simpa [plainEntry, Function.comp_def] using this

theorem openedSession_ptb (s : State) : (openedSession s).ptb = s.ptb := by simp [openedSession]

theorem tableSafe_worked (h : Worked settings power s0 b s) (h0 : TableSafe s0) : TableSafe s := by
  induction h with
  | start => exact h0
  | time d _ ih => exact tableSafe_sublist ih (by simp [passTime, PeerEntry.age, Function.comp_def]) rfl
  | entryMarks es _ plain ih => exact tableSafe_sublist ih (map_code_of_plain plain ▸ .refl _) rfl
  | refreshed code _ _ ih =>
    exact tableSafe_sublist ih (by simp [setEntries, updateEntry_codes code PeerEntry.refreshed _ fun _ => rfl]) rfl
  | entries es _ codes ih => exact tableSafe_sublist ih codes rfl
  | @entered _ s e _ own absent room ih =>
    obtain ⟨_, ascend, others⟩ := ih
    refine ⟨?_, insertEntry_ascends ((findEntry_none_iff _ _).1 absent) ascend, fun x hx => ?_⟩
    · exact (insertEntry_length e s.ptb.entries).le.trans room
    · rcases mem_insertEntry.1 hx with rfl | hx
      · exact own
      · exact others x hx
  | emptied => exact tableSafe_empty rfl
  | opened _ _ _ ih =>
    exact tableSafe_sublist ih (by rw [openedSession_ptb]) (by simp [openedSession])
  | configured => exact tableSafe_empty (by simp [configured, emptyTable])
  | reset => exact tableSafe_empty rfl
  | powerLost => exact tableSafe_empty rfl
  | _ => rename_i ih; exact tableSafe_sublist ih (by simp) (by simp)

/-- Settles O13: every operation of an event keeps the table's rules (`tableSafe_worked`). -/
theorem tableInvariant : Obligations.TableInvariant := by
  intro s t safe run
  obtain ⟨_, _, _, worked⟩ := step_worked run
  exact tableSafe_worked worked safe

end

end Sys2Proof.Proofs
end

section
/-! PROOF. The heater's invariant (R46, R64, R76, R81), by induction over what the work of an event can do. -/

namespace Sys2Proof.Proofs
open Sys2Proof.Machine

section
variable {settings power : Prop} {s0 s : State} {b : Bool}

/-! ## Zones -/

theorem anyHeating_iff (q : Quad Zone) : q.anyHeating = true ↔ ∃ z, (q.get z).heats = true := by
  constructor
  · intro h
    simp only [Quad.anyHeating, Quad.list, List.any_cons, List.any_nil, Bool.or_false, Bool.or_eq_true] at h
    rcases h with h | h | h | h
    · exact ⟨.z1, h⟩
    · exact ⟨.z2, h⟩
    · exact ⟨.z3, h⟩
    · exact ⟨.z4, h⟩
  · rintro ⟨z, h⟩
    cases z <;> simp_all [Quad.anyHeating, Quad.list, Quad.get]

theorem anyHeating_mono {p q : Quad Zone} (h : ∀ z, (p.get z).heats = true → (q.get z).heats = true)
    (hp : p.anyHeating = true) : q.anyHeating = true := by
  obtain ⟨z, hz⟩ := (anyHeating_iff p).1 hp
  exact (anyHeating_iff q).2 ⟨z, h z hz⟩

theorem anyHeating_false_mono {p q : Quad Zone} (h : ∀ z, (p.get z).heats = true → (q.get z).heats = true)
    (hq : q.anyHeating = false) : p.anyHeating = false := by
  by_contra hp
  rw [anyHeating_mono h (by simpa using hp)] at hq
  cases hq

/-- Fewer HEATING zones draw no more. -/
theorem ratedSum_heats_mono {p q : Quad Zone} (ratings : Quad Nat)
    (h : ∀ z, (p.get z).heats = true → (q.get z).heats = true) :
    ratedSum Zone.heats p ratings ≤ ratedSum Zone.heats q ratings := by
  have each (z : ZoneId) : (if (p.get z).heats then ratings.get z else 0) ≤ if (q.get z).heats then ratings.get z else 0 := by
    split
    · next hp => rw [if_pos (h z hp)]
    · exact Nat.zero_le _
  simp only [ratedSum, allZones, List.map_cons, List.map_nil, List.sum_cons, List.sum_nil, Nat.add_zero]
  have h1 := each .z1
  have h2 := each .z2
  have h3 := each .z3
  have h4 := each .z4
  omega

theorem ratedSum_heats_congr {p q : Quad Zone} (ratings : Quad Nat) (h : ∀ z, (p.get z).heats = (q.get z).heats) :
    ratedSum Zone.heats p ratings = ratedSum Zone.heats q ratings := by
  simp [ratedSum, allZones, h]

/-- The switch-off for allowance switches no zone on (R76). -/
theorem shedZones_heats (limit allow : Nat) (ratings : Quad Nat) (zs : List ZoneId) (q : Quad Zone) (z : ZoneId)
    (h : ((shedZones limit allow ratings zs q).get z).heats = true) : (q.get z).heats = true := by
  induction zs generalizing q with
  | nil => exact h
  | cons w zs ih =>
    unfold shedZones at h
    split at h
    · exact h
    · have on := ih _ h
      rw [Quad.get_set] at on
      split at on
      · simp [switchOff_off] at on
      · exact on

theorem warm_heats (limit d : Nat) (z : Zone) : (z.warm limit d).heats = z.heats := by
  unfold Zone.warm
  split <;> rfl

/-! ## The split -/

theorem split_within (tPermit : Int) (limit : Nat) (d : Dmu) :
    (d.split tPermit limit).chargerAllow + (d.split tPermit limit).heaterAllow ≤ limit := by
  unfold Dmu.split
  dsimp only
  split <;> dsimp only <;> omega

/-- What of the heater's invariant does not speak of the allowances. -/
def HeaterBase (s : State) : Prop :=
  (s.htr.zones.anyHeating = true → s.htr.contactor = true ∧ s.htr.idle = none) ∧
    (s.stc.op ≠ .session → s.htr.zones.anyHeating = false ∧ s.htr.contactor = false) ∧ ∀ z, z ∈ s.cfg.zoneOrder

theorem heaterSafe_iff (s : State) : HeaterSafe s ↔ HeaterBase s ∧
    ratedSum Zone.heats s.htr.zones s.cfg.ratings ≤ s.dmu.heaterAllow ∧
    s.dmu.chargerAllow + s.dmu.heaterAllow ≤ s.shu.limit ∧ s.shu.setpoint ≤ s.dmu.chargerAllow := by
  simp only [HeaterSafe, HeaterBase, and_assoc]

theorem heaterBase_congr {s t : State} (h : HeaterBase s) (htr : t.htr = s.htr) (stc : t.stc.op = s.stc.op)
    (cfg : t.cfg = s.cfg) : HeaterBase t := by
  unfold HeaterBase
  rw [htr, stc, cfg]
  exact h

/-- A split brings everything within what it allots: the zones by the switch-off for allowance, whose order names them all, and the
setpoint at once (R46, R64, R76). -/
theorem heaterSafe_resplit {s : State} (h : HeaterBase s) : HeaterSafe (resplit s) := by
  obtain ⟨closed, out, order⟩ := h
  have off := shedZones_heats s.cfg.doseLimit (s.dmu.split s.cfg.tPermit s.shu.limit).heaterAllow s.cfg.ratings
    s.cfg.zoneOrder.reverse s.htr.zones
  refine (heaterSafe_iff _).2 ⟨⟨fun any => closed (anyHeating_mono off any), fun no => ?_, order⟩, ?_, split_within _ _ _,
    Nat.min_le_right _ _⟩
  · exact ⟨anyHeating_false_mono off (out no).1, (out no).2⟩
  · exact shedZones_within _ _ _ _ _ fun z _ => List.mem_reverse.2 (order z)

theorem heaterSafe_regrant {s : State} (h : HeaterBase s) : HeaterSafe (resplit (regrant s)) :=
  heaterSafe_resplit (heaterBase_congr h (by simp) (by simp) (by simp))

theorem heaterSafe_settleTable {s : State} (h : HeaterBase s) : HeaterSafe (settleTable s) :=
  heaterSafe_resplit (heaterBase_congr h (by simp) (by simp) (by simp))

/-! ## The operations that touch the heater -/

theorem heaterSafe_zone {z : ZoneId} {x : Zone} (off : x.heats = true → (s.htr.zones.get z).heats = true)
    (h : HeaterSafe s) : HeaterSafe (setZone z x s) := by
  have fewer (w : ZoneId) (hw : ((s.htr.zones.set z x).get w).heats = true) : (s.htr.zones.get w).heats = true := by
    rw [Quad.get_set] at hw
    split at hw
    · next e => rw [e]; exact off hw
    · exact hw
  obtain ⟨⟨closed, out, order⟩, rated, rest⟩ := (heaterSafe_iff s).1 h
  refine (heaterSafe_iff _).2 ⟨⟨fun any => closed (anyHeating_mono fewer any), fun no => ?_, order⟩, ?_, rest⟩
  · exact ⟨anyHeating_false_mono fewer (out no).1, (out no).2⟩
  · exact (ratedSum_heats_mono _ fewer).trans rated

/-- The switch-on test closes the contactor under the zone it switches on, and does nothing outside SESSION (R74, R81). -/
theorem heaterSafe_switchOn (h : HeaterSafe s) :
    HeaterSafe { s with htr := s.htr.switchOn s.now (inSession s) s.dmu.heaterAllow s.cfg } := by
  obtain ⟨⟨closed, out, order⟩, rated, rest⟩ := (heaterSafe_iff s).1 h
  have within := switchOn_within (now := s.now) (b := inSession s) rated
  refine (heaterSafe_iff _).2 ⟨?_, within, rest⟩
  unfold Htr.switchOn
  split
  · exact ⟨closed, out, order⟩
  · next z hz =>
    have session : s.stc.op = .session := by
      unfold Htr.candidate at hz
      split at hz
      · cases hz
      · split at hz
        · next hc =>
          simp only [Bool.and_eq_true] at hc
          exact of_decide_eq_true hc.1.1.1
        · cases hz
    exact ⟨fun _ => ⟨rfl, rfl⟩, fun no => absurd session no, order⟩

theorem heaterSafe_startIdle (had : Bool) (h : HeaterSafe s) :
    HeaterSafe { s with htr := s.htr.startIdle s.now (inSession s) had } := by
  unfold Htr.startIdle
  split
  · next hc =>
    have none : s.htr.zones.anyHeating = false := by
      simp only [Bool.and_eq_true, Bool.not_eq_true'] at hc
      exact hc.2
    obtain ⟨⟨_, out, order⟩, rest⟩ := (heaterSafe_iff s).1 h
    exact (heaterSafe_iff _).2 ⟨⟨fun any => absurd any (by simp [none]), out, order⟩, rest⟩
  · exact h

theorem leaveSession_off (limit : Nat) (h : Htr) (z : ZoneId) : ((h.leaveSession limit).zones.get z).heats = false := by
  simp [Htr.leaveSession, switchOff_off]

theorem anyHeating_of_off {q : Quad Zone} (h : ∀ z, (q.get z).heats = false) : q.anyHeating = false := by
  by_contra any
  obtain ⟨z, hz⟩ := (anyHeating_iff q).1 (by simpa using any)
  rw [h z] at hz
  cases hz

/-- A departure switches every zone off and opens the heater contactor (R83). -/
theorem heaterSafe_depart {reason : CloseReason} {code : Option FaultCode} {dest : OpState} (h : HeaterSafe s) :
    HeaterSafe (depart reason code dest s) := by
  have htr : (departing reason code dest s).htr = s.htr.leaveSession s.cfg.doseLimit := by
    simp [departing]
  have base : HeaterBase (departing reason code dest s) := by
    have off : (departing reason code dest s).htr.zones.anyHeating = false := by
      rw [htr]; exact anyHeating_of_off (leaveSession_off _ _)
    refine ⟨fun any => absurd any (by simp [off]), fun _ => ⟨off, by rw [htr]; rfl⟩, ?_⟩
    have cfg : (departing reason code dest s).cfg = s.cfg := by simp [departing]
    rw [cfg]
    exact h.2.2.1
  obtain ⟨split, rated, allotted, _⟩ := (heaterSafe_iff _).1 (heaterSafe_regrant base)
  rw [depart_eq]
  exact (heaterSafe_iff _).2 ⟨split, rated, allotted, Nat.zero_le _⟩

/-- The state in which the opening of a session recomputes the grant. -/
def opening (s : State) : State :=
  let s1 := { s with ses := s.ses.openSession s.cfg.stationCode s.cfg.depotCode (clock s) s.mtr.lifetime }
  let s2 := setOp .session s1
  reweigh (refreshDemand (rereadDelivered { s2 with
    stc := { s2.stc with contactor := true }
    mtr := s2.mtr.openSession s2.now (currentBand s2)
    htr := s2.htr.resetDoses
    ins := s2.ins.enterSession s2.now (clock s2) s2.cfg
    shu := s2.shu.enterSession }))

theorem openedSession_eq (s : State) : openedSession s = resplit (regrant (opening s)) := rfl

theorem heaterSafe_opened (h : HeaterSafe s) : HeaterSafe (openedSession s) := by
  obtain ⟨closed, _, order, _⟩ := h
  have htr : (opening s).htr = s.htr.resetDoses := rfl
  have fewer (z : ZoneId) (hz : (s.htr.resetDoses.zones.get z).heats = true) : (s.htr.zones.get z).heats = true := by
    rw [Htr.resetDoses, Quad.get_map] at hz
    exact hz
  rw [openedSession_eq]
  refine heaterSafe_regrant ⟨fun any => ?_, fun no => absurd rfl no, order⟩
  rw [htr] at any
  exact closed (anyHeating_mono fewer any)

/-- The state in which CONFIGURE recomputes the grant. -/
def configuring (c : Configured) (s : State) : State :=
  setOp .ready (refreshDemand (emptyTable { s with
    cfg := c.settings
    stc := { s.stc with clockSet := true, clockMicros := c.clockBase * 1000000 }
    dli := { s.dli with sequence := sequenceSeed c.settings.stationCode }
    htr := s.htr.stopCycle
    mtr := { s.mtr.enterReady with periodEnd := some (s.now + Config.sampleMicros) } }))

theorem configured_eq (c : Configured) (s : State) : configured c s = resplit (regrant (configuring c s)) := rfl

theorem mem_allZones (z : ZoneId) : z ∈ allZones := by cases z <;> decide

/-- Four zones named by a zone order of four different ones are all the zones (R68). -/
theorem zoneOrderOf_names {bs : List Byte} {zs : List ZoneId} (h : zoneOrderOf bs = some zs) (z : ZoneId) : z ∈ zs := by
  unfold zoneOrderOf at h
  split at h
  · split at h
    · next a b c d _ hne =>
      cases h
      have distinct : [a, b, c, d].Nodup := by simpa [and_assoc] using hne
      have named : [a, b, c, d].Perm allZones :=
        (distinct.subperm fun w _ => mem_allZones w).perm_of_length_le (Nat.le_refl 4)
      exact named.mem_iff.2 (mem_allZones z)
    · cases h
  · cases h

theorem configOf_zoneOrder (bs : List Byte) : (configOf bs).settings.zoneOrder =
    if usesDefault (fieldAt bs 0 4) 13 then defaultOrder else (zoneOrderOf ((bs.drop 57).take 4)).getD defaultOrder := rfl

theorem configOf_names (bs : List Byte) (z : ZoneId) : z ∈ (configOf bs).settings.zoneOrder := by
  rw [configOf_zoneOrder]
  split
  · cases z <;> decide
  · cases h : zoneOrderOf ((bs.drop 57).take 4) with
    | none => cases z <;> decide
    | some zs => exact zoneOrderOf_names h z

theorem heaterSafe_configured (bs : List Byte) (atStart : s.stc.op = .start) (h : HeaterSafe s) :
    HeaterSafe (configured (configOf bs) s) := by
  obtain ⟨closed, out, _⟩ := h
  obtain ⟨off, isOpen⟩ := out (by simp [atStart])
  rw [configured_eq]
  exact heaterSafe_regrant ⟨closed, fun _ => ⟨off, isOpen⟩, configOf_names bs⟩

theorem heaterSafe_reset {s : State} (cfg : s.cfg = Settings.reset) (htr : s.htr = Htr.reset) (dmu : s.dmu = Dmu.reset)
    (shu : s.shu.limit = 0 ∧ s.shu.setpoint = 0) : HeaterSafe s := by
  have off : s.htr.zones.anyHeating = false := by rw [htr]; rfl
  refine (heaterSafe_iff _).2 ⟨⟨fun any => absurd any (by simp [off]), fun _ => ⟨off, by rw [htr]; rfl⟩, fun z => ?_⟩, ?_, ?_, ?_⟩
  · rw [cfg]; cases z <;> decide
  · rw [htr, dmu, cfg]; decide
  · rw [dmu, shu.1]; decide
  · rw [dmu, shu.2]; decide

theorem heaterSafe_worked (h : Worked settings power s0 b s) (h0 : HeaterSafe s0) : HeaterSafe s := by
  induction h with
  | start => exact h0
  | @time _ s d _ ih =>
    obtain ⟨⟨closed, out, order⟩, rated, rest⟩ := (heaterSafe_iff s).1 ih
    have same (z : ZoneId) : ((s.htr.zones.map (Zone.warm s.cfg.doseLimit d)).get z).heats = (s.htr.zones.get z).heats := by
      rw [Quad.get_map, warm_heats]
    have fewer (z : ZoneId) (hz : ((s.htr.zones.map (Zone.warm s.cfg.doseLimit d)).get z).heats = true) :
        (s.htr.zones.get z).heats = true := same z ▸ hz
    refine (heaterSafe_iff _).2 ⟨⟨fun any => closed (anyHeating_mono fewer any), fun no => ?_, order⟩, ?_, rest⟩
    · exact ⟨anyHeating_false_mono fewer (out no).1, (out no).2⟩
    · exact (ratedSum_heats_congr _ same).le.trans rated
  | heater x _ zones contactor idle ih =>
    unfold HeaterSafe
    dsimp only
    rw [zones, contactor, idle]
    exact ih
  | @heaterIdle _ s _ runs ih =>
    obtain ⟨⟨closed, out, order⟩, rest⟩ := (heaterSafe_iff s).1 ih
    exact (heaterSafe_iff _).2 ⟨⟨fun any => absurd (closed any).2 runs, fun no => ⟨(out no).1, rfl⟩, order⟩, rest⟩
  | zone z x _ off ih => exact heaterSafe_zone off ih
  | switchOn _ ih => exact heaterSafe_switchOn ih
  | idleStart had _ ih => exact heaterSafe_startIdle had ih
  | @share _ s u _ kept ih =>
    obtain ⟨_, limit, _, _, _, _, _, _, setpoint⟩ := kept
    obtain ⟨base, rated, allotted, below⟩ := (heaterSafe_iff s).1 ih
    refine (heaterSafe_iff _).2 ⟨base, rated, limit.symm ▸ allotted, ?_⟩
    rcases setpoint with same | ramped
    · exact same.le.trans below
    · exact ramped
  | @demand _ s d _ charger heater ih =>
    obtain ⟨base, rated, allotted, below⟩ := (heaterSafe_iff s).1 ih
    exact (heaterSafe_iff _).2 ⟨base, heater.symm ▸ rated,
      by dsimp only; rw [charger, heater]; exact allotted, charger.symm ▸ below⟩
  | @demandKept _ s d _ charger heater _ _ ih =>
    obtain ⟨base, rated, allotted, below⟩ := (heaterSafe_iff s).1 ih
    exact (heaterSafe_iff _).2 ⟨base, heater.symm ▸ rated,
      by dsimp only; rw [charger, heater]; exact allotted, charger.symm ▸ below⟩
  | regrant _ ih => exact heaterSafe_regrant ((heaterSafe_iff _).1 ih).1
  | table _ ih => exact heaterSafe_settleTable ((heaterSafe_iff _).1 ih).1
  | split _ ih => exact heaterSafe_resplit ((heaterSafe_iff _).1 ih).1
  | holdTest _ ih => exact heaterSafe_resplit (heaterBase_congr ((heaterSafe_iff _).1 ih).1 (by simp) (by simp) (by simp))
  | @station _ s c _ noSession _ _ _ ih =>
    obtain ⟨⟨closed, out, order⟩, rest⟩ := (heaterSafe_iff s).1 ih
    exact (heaterSafe_iff _).2 ⟨⟨closed, fun _ => out noSession, order⟩, rest⟩
  | departed reason code dest _ _ _ ih => exact heaterSafe_depart ih
  | opened _ _ _ ih => exact heaterSafe_opened ih
  | configured bs _ _ atStart _ ih => exact heaterSafe_configured bs atStart ih
  | reset => exact heaterSafe_reset rfl rfl rfl ⟨rfl, rfl⟩
  | powerLost => exact heaterSafe_reset rfl rfl rfl ⟨rfl, rfl⟩
  | _ => rename_i ih; exact ih

/-- Settles O10: every operation of an event keeps the heater's rules (`heaterSafe_worked`). -/
theorem heaterInvariant : Obligations.HeaterInvariant := by
  intro s t safe run
  obtain ⟨_, _, _, worked⟩ := step_worked run
  exact heaterSafe_worked worked safe

end

end Sys2Proof.Proofs
end

section
/-! PROOF. The invariant of the draw limit (R20, R30, R36, R42), by induction over what the work of an event can do; and the reset
state, which meets every invariant. -/

namespace Sys2Proof.Proofs
open Sys2Proof.Machine

section
variable {settings power : Prop} {s0 s : State} {b : Bool}

/-! ## What a grant looks at -/

/-- A recomputation looks at the entries' codes, share fields and freshness alone (R20). -/
theorem computeGrant_plain (i : GrantInputs) :
    computeGrant i = computeGrant { i with entries := i.entries.map plainEntry } := by
  simp only [computeGrant, GrantInputs.cause, frozenSum, reservedSum, participants, List.filter_map, List.map_map]
  rfl

theorem effectiveFeeder_plain (own : Nat) (es : List PeerEntry) :
    effectiveFeeder own (es.map plainEntry) = effectiveFeeder own es := by
  rw [effectiveFeeder, List.foldl_map]
  rfl

theorem reservedSum_plain (es : List PeerEntry) : reservedSum (es.map plainEntry) = reservedSum es := by
  rw [reservedSum, List.map_map]
  rfl

/-! ## The two halves of the invariant -/

/-- The Share Unit's own relations of limit, intent, grant and hold (R36, R42). -/
def ShareSafe (u : Shu) : Prop :=
  u.limit ≤ u.intent ∧ u.intent = u.record.grant ∧ u.intent ≤ u.record.balance.toNat ∧
    (u.hold = .steady → u.limit = u.intent ∧ u.raisePending = false ∧ u.holdStart = none ∧ u.holdTimer = none) ∧
    (u.hold = .holding → u.limit < u.intent)

/-- F is the least feeder limit heard (R14). -/
def FeederSafe (s : State) : Prop := s.ptb.feeder = effectiveFeeder s.cfg.feederLimit s.ptb.entries

/-- The record agrees with the figures as they stand (R30). -/
def GrantSettled (s : State) : Prop :=
  s.shu.record.available = s.ptb.feeder * (1000 - s.cfg.margin) / 1000 ∧
    s.shu.record.balance = (s.shu.record.available : Int) - (reservedSum s.ptb.entries : Int) ∧
    (s.stc.op ≠ .start → s.shu.record = computeGrant s.grantInputs)

theorem limitSafe_iff (s : State) : LimitSafe s ↔ ShareSafe s.shu ∧ FeederSafe s ∧ GrantSettled s := by
  simp only [LimitSafe, ShareSafe, FeederSafe, GrantSettled, and_assoc]

theorem computeGrant_within (i : GrantInputs) : (computeGrant i).grant ≤ (computeGrant i).balance.toNat := by
  unfold computeGrant
  dsimp only
  split
  · exact Nat.min_le_right _ _
  · exact Nat.zero_le _

/-- A grant within its balance, taken by the cases of R37, leaves limit, intent and hold in their relations (R36 to R39, R42). -/
theorem shareSafe_applyGrant {u : Shu} {r : GrantRecord} (h : ShareSafe u) (within : r.grant ≤ r.balance.toNat) :
    ShareSafe { u with record := r }.applyGrant := by
  obtain ⟨below, _, _, steady, holding⟩ := h
  unfold Shu.applyGrant Shu.steady
  dsimp only
  split
  · exact ⟨Nat.le_refl _, rfl, within, fun _ => ⟨rfl, rfl, rfl, rfl⟩, nofun⟩
  next ge =>
  split
  · next lt =>
    split
    · next eq => exact ⟨eq.ge, rfl, within, fun _ => ⟨eq.symm, rfl, rfl, rfl⟩, nofun⟩
    · next ne =>
      refine ⟨by dsimp only; omega, rfl, within, fun hs => ?_, fun _ => by dsimp only; omega⟩
      have := (steady hs).1
      dsimp only at *
      omega
  next ge' =>
  split
  · next gt => exact ⟨by dsimp only; omega, rfl, within, nofun, fun _ => by dsimp only; omega⟩
  · next le =>
    have eq : u.intent = r.grant := by omega
    exact ⟨below, eq, eq.symm ▸ within, steady, holding⟩

theorem shareSafe_complete {u : Shu} (h : ShareSafe u) : ShareSafe u.complete := by
  obtain ⟨_, grant, within, _, _⟩ := h
  have eq : min u.intent u.record.grant = u.intent := by rw [← grant, Nat.min_self]
  exact ⟨eq.le, grant, within, fun _ => ⟨eq, rfl, rfl, rfl⟩, nofun⟩

theorem shareSafe_lowerSetpoint {u : Shu} (allow : Nat) (h : ShareSafe u) : ShareSafe (u.lowerSetpoint allow) := h

theorem shareSafe_regrant (h : ShareSafe s.shu) : ShareSafe (regrant s).shu := by
  rw [regrant_shu]
  exact shareSafe_applyGrant h (computeGrant_within _)

theorem shareSafe_holdTest (h : ShareSafe s.shu) : ShareSafe (holdTest s).shu := by
  rw [holdTest_shu]
  split
  · exact shareSafe_complete h
  · exact h

theorem holdTest_record (s : State) : (holdTest s).shu.record = s.shu.record := by
  rw [holdTest_shu]
  split <;> rfl

theorem regrant_record (s : State) : (regrant s).shu.record = computeGrant s.grantInputs := by
  rw [regrant_shu, applyGrant_record]

/-- A record just computed agrees with the figures. -/
theorem grantSettled_of_record {s : State} (h : s.shu.record = computeGrant s.grantInputs) : GrantSettled s := by
  refine ⟨?_, ?_, fun _ => h⟩ <;> rw [h] <;> rfl

/-- What holds of the limit at every moment of an event, and, where the mark says so, of the record too. -/
def LimitKept (b : Bool) (s : State) : Prop := ShareSafe s.shu ∧ FeederSafe s ∧ (b = true → GrantSettled s)

theorem limitKept_regrant {s : State} (share : ShareSafe s.shu) (feeder : FeederSafe s) (b : Bool) :
    LimitKept b (resplit (regrant s)) := by
  refine ⟨shareSafe_lowerSetpoint _ (shareSafe_regrant share), ?_, fun _ => grantSettled_of_record ?_⟩
  · simpa [FeederSafe] using feeder
  · rw [resplit_grantInputs, regrant_grantInputs]
    exact regrant_record s

theorem limitKept_settleTable {s : State} (share : ShareSafe s.shu) (feeder : FeederSafe s) (b : Bool) :
    LimitKept b (settleTable s) := by
  refine ⟨shareSafe_lowerSetpoint _ (shareSafe_holdTest (shareSafe_regrant share)), ?_, fun _ => grantSettled_of_record ?_⟩
  · simpa [FeederSafe] using feeder
  · rw [settleTable_grantInputs, settleTable_record]

/-- A change that leaves the record, the table and the figures of a grant as they were. -/
theorem limitKept_congr {b : Bool} {s t : State} (h : LimitKept b s) (share : ShareSafe t.shu)
    (record : t.shu.record = s.shu.record) (ptb : t.ptb = s.ptb) (cfg : t.cfg = s.cfg)
    (inputs : t.grantInputs = s.grantInputs) (op : t.stc.op ≠ .start → s.stc.op ≠ .start) : LimitKept b t := by
  obtain ⟨_, feeder, settled⟩ := h
  refine ⟨share, ?_, fun hb => ?_⟩
  · unfold FeederSafe
    rw [ptb, cfg]
    exact feeder
  · obtain ⟨available, balance, same⟩ := settled hb
    unfold GrantSettled
    rw [record, ptb, cfg, inputs]
    exact ⟨available, balance, fun no => same (op no)⟩

/-- Entries whose codes, share fields and freshness are as they were leave the record the grant of the figures (R20). -/
theorem limitKept_plain {b : Bool} {s t : State} (h : LimitKept b s) (shu : t.shu = s.shu) (cfg : t.cfg = s.cfg)
    (feeder : t.ptb.feeder = s.ptb.feeder) (op : t.stc.op = s.stc.op)
    (plain : t.ptb.entries.map plainEntry = s.ptb.entries.map plainEntry)
    (inputs : t.grantInputs = { s.grantInputs with entries := t.ptb.entries }) : LimitKept b t := by
  obtain ⟨share, fed, settled⟩ := h
  refine ⟨by rw [shu]; exact share, ?_, fun hb => ?_⟩
  · unfold FeederSafe
    rw [feeder, cfg, ← effectiveFeeder_plain, plain, effectiveFeeder_plain]
    exact fed
  · obtain ⟨available, balance, same⟩ := settled hb
    unfold GrantSettled
    rw [shu, feeder, cfg, op, ← reservedSum_plain, plain, reservedSum_plain, computeGrant_plain, inputs]
    refine ⟨available, balance, fun no => ?_⟩
    rw [same no, computeGrant_plain s.grantInputs]
    exact congrArg computeGrant (congrArg (fun es => { s.grantInputs with entries := es }) plain.symm)

/-! ## A refresh of a FRESH entry -/

theorem eq_of_code {es : List PeerEntry} (h : (es.map PeerEntry.code).Pairwise (fun a b => a < b)) {x y : PeerEntry}
    (hx : x ∈ es) (hy : y ∈ es) (hc : x.code = y.code) : x = y :=
  List.inj_on_of_nodup_map (h.imp fun h => Nat.ne_of_lt h) hx hy hc

theorem fresh_of_not_stale {code : Nat} {es : List PeerEntry} (fresh : wasStale code es = false) {e f : PeerEntry}
    (hf : findEntry code es = some f) (he : e = f) : e.freshness = .fresh := by
  unfold wasStale at fresh
  rw [hf] at fresh
  subst he
  cases h : e.freshness with
  | fresh => rfl
  | stale => simp [h] at fresh

/-- Where no code stands twice, the refresh of a sender that was not STALE changes silences alone (R6). -/
theorem refreshed_plain {code : Nat} {es : List PeerEntry} (h : (es.map PeerEntry.code).Pairwise (fun a b => a < b))
    (fresh : wasStale code es = false) : (updateEntry code PeerEntry.refreshed es).map plainEntry = es.map plainEntry := by
  rw [updateEntry, List.map_map]
  refine List.map_congr_left fun e he => ?_
  simp only [Function.comp_apply]
  split
  · next hc =>
    obtain ⟨f, hf⟩ : ∃ f, findEntry code es = some f := by
      cases hf : findEntry code es with
      | none => exact absurd hc ((findEntry_none_iff code es).1 hf e he)
      | some f => exact ⟨f, rfl⟩
    have mem : f ∈ es := List.mem_of_find?_eq_some hf
    have named : f.code = code := by simpa using List.find?_some hf
    have := fresh_of_not_stale fresh hf (eq_of_code h he mem (hc.trans named.symm))
    simp [plainEntry, PeerEntry.refreshed, this]
  · rfl

/-! ## The composite operations -/

theorem departing_kept (reason : CloseReason) (code : Option FaultCode) (dest : OpState) (s : State) :
    (departing reason code dest s).shu = s.shu ∧ (departing reason code dest s).ptb = s.ptb ∧
      (departing reason code dest s).cfg = s.cfg := by simp [departing]

theorem limitKept_depart {reason : CloseReason} {code : Option FaultCode} {dest : OpState} (share : ShareSafe s.shu)
    (feeder : FeederSafe s) : LimitKept true (depart reason code dest s) := by
  obtain ⟨shu, ptb, cfg⟩ := departing_kept reason code dest s
  have kept := limitKept_regrant (s := departing reason code dest s) (by rw [shu]; exact share)
    (by unfold FeederSafe; rw [ptb, cfg]; exact feeder) true
  rw [depart_eq]
  exact ⟨kept.1, kept.2.1, kept.2.2⟩

theorem opening_kept (s : State) : (opening s).shu = s.shu.enterSession ∧ (opening s).ptb = s.ptb ∧ (opening s).cfg = s.cfg := by
  simp [opening]

theorem limitKept_opened (share : ShareSafe s.shu) (feeder : FeederSafe s) : LimitKept true (openedSession s) := by
  obtain ⟨shu, ptb, cfg⟩ := opening_kept s
  rw [openedSession_eq]
  refine limitKept_regrant (by rw [shu]; exact share) ?_ true
  unfold FeederSafe
  rw [ptb, cfg]
  exact feeder

theorem configuring_shu (c : Configured) (s : State) : (configuring c s).shu = s.shu := by simp [configuring]

theorem limitKept_configured (c : Configured) (share : ShareSafe s.shu) : LimitKept true (configured c s) := by
  rw [configured_eq]
  have feeder : FeederSafe (configuring c s) := rfl
  exact limitKept_regrant (by rw [configuring_shu]; exact share) feeder true

theorem limitKept_reset {s : State} (shu : ∃ m, s.shu = { Shu.reset with faultInput := m }) (ptb : s.ptb = Ptb.reset)
    (cfg : s.cfg = Settings.reset) (op : s.stc.op = .start) : LimitKept true s := by
  obtain ⟨m, shu⟩ := shu
  refine ⟨?_, ?_, fun _ => ⟨?_, ?_, fun no => absurd op no⟩⟩
  · rw [shu]; exact ⟨Nat.le_refl _, rfl, Nat.le_refl _, fun _ => ⟨rfl, rfl, rfl, rfl⟩, nofun⟩
  · unfold FeederSafe; rw [ptb, cfg]; rfl
  · rw [shu, ptb, cfg]; rfl
  · rw [shu, ptb]; rfl

theorem limitKept_worked (h : Worked settings power s0 b s) (table : TableSafe s0) (h0 : LimitSafe s0) :
    LimitKept b s := by
  induction h with
  | start => exact ⟨((limitSafe_iff _).1 h0).1, ((limitSafe_iff _).1 h0).2.1, fun _ => ((limitSafe_iff _).1 h0).2.2⟩
  | unsettled _ ih => exact ⟨ih.1, ih.2.1, nofun⟩
  | @time _ s d _ ih =>
    exact limitKept_plain ih rfl rfl rfl rfl (by simp [passTime, plainEntry, PeerEntry.age, Function.comp_def]) rfl
  | share u _ kept ih =>
    obtain ⟨record, limit, intent, hold, pending, start, timer, _, _⟩ := kept
    refine limitKept_congr ih ?_ record rfl rfl rfl id
    unfold ShareSafe
    dsimp only
    rw [record, limit, intent, hold, pending, start, timer]
    exact ih.1
  | @holdStart _ s carried _ starts ih =>
    obtain ⟨below, grant, within, steady, holding⟩ := ih.1
    have raised : s.shu.raisePending = true := by
      unfold startsHold at starts
      simp only [Bool.and_eq_true] at starts
      exact starts.1
    refine limitKept_congr ih ⟨below, grant, within, fun hs => ?_, holding⟩ rfl rfl rfl rfl id
    have := (steady hs).2.1
    rw [raised] at this
    cases this
  | @holdTimer _ s _ ih =>
    obtain ⟨below, grant, within, steady, holding⟩ := ih.1
    refine limitKept_congr ih ⟨below, grant, within, fun hs => ?_, holding⟩ rfl rfl rfl rfl id
    obtain ⟨eq, pending, start, _⟩ := steady hs
    exact ⟨eq, pending, start, rfl⟩
  | demand d _ _ _ ih => exact ⟨ih.1, ih.2.1, nofun⟩
  | demandKept d _ _ _ own weight ih =>
    refine limitKept_congr ih ih.1 rfl rfl rfl ?_ id
    unfold State.grantInputs
    dsimp only
    rw [own, weight]
  | regrant _ ih => exact limitKept_regrant ih.1 ih.2.1 true
  | table _ ih => exact limitKept_settleTable ih.1 ih.2.1 true
  | split _ ih => exact limitKept_congr ih ih.1 rfl rfl rfl (resplit_grantInputs _) id
  | holdTest _ ih =>
    refine limitKept_congr ih (shareSafe_lowerSetpoint _ (shareSafe_holdTest ih.1)) (holdTest_record _) (by simp) (by simp) ?_ ?_
    · rw [resplit_grantInputs, holdTest_grantInputs]
    · simp
  | entryMarks es _ plain ih => exact limitKept_plain ih rfl rfl rfl rfl plain rfl
  | refreshed code h fresh ih =>
    exact limitKept_plain ih rfl rfl rfl rfl (refreshed_plain (tableSafe_worked h table).2.1 fresh) rfl
  | entries es _ _ ih => exact ⟨ih.1, rfl, nofun⟩
  | entered e _ _ _ _ ih => exact ⟨ih.1, rfl, nofun⟩
  | emptied _ ih => exact ⟨ih.1, rfl, nofun⟩
  | unlisted m _ ih => exact ⟨ih.1, ih.2.1, nofun⟩
  | unlistedKept m _ runs ih =>
    obtain ⟨share, feeder, settled⟩ := ih
    refine ⟨share, feeder, fun hb => ?_⟩
    obtain ⟨available, balance, same⟩ := settled hb
    refine ⟨available, balance, fun no => (same no).trans (congrArg computeGrant ?_)⟩
    unfold State.grantInputs
    dsimp only
    rw [runs]
  | station c _ noSession noStart dest _ ih =>
    refine limitKept_congr ih ih.1 rfl rfl rfl ?_ fun _ => noStart
    unfold State.grantInputs
    dsimp only
    rw [decide_eq_false dest, decide_eq_false noSession]
  | departed reason code dest _ _ _ ih => exact limitKept_depart ih.1 ih.2.1
  | @opened _ s _ _ _ ih => exact limitKept_opened ih.1 ih.2.1
  | @configured _ s bs _ _ _ _ ih => exact limitKept_configured _ ih.1
  | @reset _ s => exact limitKept_reset ⟨s.shu.faultInput, rfl⟩ rfl rfl rfl
  | @powerLost _ s => exact limitKept_reset ⟨s.shu.faultInput, rfl⟩ rfl rfl rfl
  | credited _ ih =>
    refine limitKept_congr ih ih.1 rfl rfl rfl ?_ id
    simp [State.grantInputs, writeSnapshot, creditInterval]
  | acknowledged n _ ih =>
    refine limitKept_congr ih ih.1 rfl rfl rfl ?_ id
    unfold State.grantInputs
    dsimp only
    rcases ack_cases n _ with same | dropped
    · rw [same]
    · rw [dropped]
  | _ => rename_i ih; exact ih

/-- Settles O14: every operation of an event keeps limit, intent and hold in their relations and F the least limit heard, and an
event ends with the record the grant of the figures as they stand (`limitKept_worked`). -/
theorem limitInvariant : Obligations.LimitInvariant := by
  intro s t table safe run
  obtain ⟨_, _, _, worked⟩ := step_worked run
  obtain ⟨share, feeder, settled⟩ := limitKept_worked worked table safe
  exact (limitSafe_iff t).2 ⟨share, feeder, settled rfl⟩

end

/-! ## Reset -/

/-- Settles O15: each invariant is a fact about the reset values. -/
theorem resetIsSafe : Obligations.ResetIsSafe := by
  refine ⟨rfl, fun _ => ⟨rfl, rfl, rfl, rfl, rfl, rfl⟩, ⟨fun busy => absurd rfl busy, fun on => absurd rfl on⟩,
    heaterSafe_reset rfl rfl rfl ⟨rfl, rfl⟩, ?_, ⟨Nat.zero_le _, Nat.zero_le _, Nat.zero_le _, Nat.zero_le _⟩,
    tableSafe_empty rfl, ?_⟩
  · exact ⟨rfl, rfl, Nat.zero_le _, nofun, .nil, nofun, nofun⟩
  · obtain ⟨share, feeder, settled⟩ := limitKept_reset (s := State.reset) ⟨_, rfl⟩ rfl rfl rfl
    exact (limitSafe_iff _).2 ⟨share, feeder, settled rfl⟩

/-- Settles O16: the values as `State.reset` gives them. -/
theorem resetValues : Obligations.ResetValues := by
  refine ⟨rfl, rfl, rfl, rfl, rfl, rfl, rfl, rfl, rfl, rfl, fun z => ?_, rfl, rfl, rfl, rfl, rfl, rfl, rfl⟩
  cases z <;> rfl

/-! ## The queue's front -/

/-- Settles O1: with a command at the front the step is that command's. -/
theorem stepRunsFront : Obligations.StepRunsFront := by
  intro c rest s front
  unfold step
  rw [front]

end Sys2Proof.Proofs
end

section
/-! PROOF. The blocks' arithmetic: the available current, the water-fill and the grant record (chapter 2), the split (chapter 4), and
the estimates (chapter 6). -/

namespace Sys2Proof.Proofs
open Sys2Proof.Machine

/-! ## The available current (R21) -/

theorem available_eq (i : GrantInputs) : (computeGrant i).available = i.feeder * (1000 - i.margin) / 1000 := rfl

/-- Settles O20: the formula of R21, bounded by the largest feeder limit and, past a margin of 200 per-mille, from below by the
least. -/
theorem availableCurrent : Obligations.AvailableCurrent := by
  intro i feeder margin
  have most : i.feeder * (1000 - i.margin) ≤ 40000 * 1000 := Nat.mul_le_mul feeder (Nat.sub_le _ _)
  refine ⟨rfl, most, ?_, fun none => ?_, fun least small => ?_⟩
  · rw [available_eq]
    omega
  · rw [available_eq, none]
    simp
  · have : 100 * 800 ≤ i.feeder * (1000 - i.margin) := Nat.mul_le_mul least (by omega)
    rw [available_eq]
    omega

/-! ## The water-fill's pass (R25, R26) -/

/-- The relation in which the pass takes the participants: demand per weight ascending by cross products, then by code (R25). -/
def Precedes (p q : Participant) : Prop :=
  p.demand * q.weight < q.demand * p.weight ∨ p.demand * q.weight = q.demand * p.weight ∧ p.code ≤ q.code

theorem precedes_of_before {p q : Participant} (h : p.before q = true) : Precedes p q := by
  rcases of_decide_eq_true h with lt | ⟨eq, code⟩
  · exact .inl lt
  · exact .inr ⟨eq, code.le⟩

theorem precedes_of_not_before {p q : Participant} (h : ¬ p.before q = true) : Precedes q p := by
  simp only [Participant.before, decide_eq_true_eq] at h
  unfold Precedes
  omega

/-- Demand per weight of positive weights is an order: the cross products compare across the participant between. -/
theorem cross_le {p q r : Participant} (hq : 1 ≤ q.weight) (h1 : p.demand * q.weight ≤ q.demand * p.weight)
    (h2 : q.demand * r.weight ≤ r.demand * q.weight) : p.demand * r.weight ≤ r.demand * p.weight := by
  refine Nat.le_of_mul_le_mul_right ?_ hq
  calc p.demand * r.weight * q.weight = p.demand * q.weight * r.weight := by ring
    _ ≤ q.demand * p.weight * r.weight := Nat.mul_le_mul_right _ h1
    _ = q.demand * r.weight * p.weight := by ring
    _ ≤ r.demand * q.weight * p.weight := Nat.mul_le_mul_right _ h2
    _ = r.demand * p.weight * q.weight := by ring

theorem precedes_trans {p q r : Participant} (hp : 1 ≤ p.weight) (hq : 1 ≤ q.weight) (hr : 1 ≤ r.weight)
    (h1 : Precedes p q) (h2 : Precedes q r) : Precedes p r := by
  have le1 : p.demand * q.weight ≤ q.demand * p.weight := by unfold Precedes at h1; omega
  have le2 : q.demand * r.weight ≤ r.demand * q.weight := by unfold Precedes at h2; omega
  rcases (cross_le hq le1 le2).lt_or_eq with lt | eq
  · exact .inl lt
  · have back1 : q.demand * p.weight ≤ p.demand * q.weight := cross_le hr le2 eq.ge
    have back2 : r.demand * q.weight ≤ q.demand * r.weight := cross_le hp eq.ge le1
    refine .inr ⟨eq, ?_⟩
    unfold Precedes at h1 h2
    omega

theorem insertParticipant_perm (p : Participant) (qs : List Participant) : (insertParticipant p qs).Perm (p :: qs) := by
  induction qs with
  | nil => exact .refl _
  | cons q qs ih =>
    unfold insertParticipant
    split
    · exact .refl _
    · exact (ih.cons q).trans (.swap p q qs)

theorem orderParticipants_perm (ps : List Participant) : (orderParticipants ps).Perm ps := by
  induction ps with
  | nil => exact .refl _
  | cons p ps ih => exact (insertParticipant_perm p _).trans (ih.cons p)

theorem insertParticipant_ordered {p : Participant} {qs : List Participant} (hp : 1 ≤ p.weight)
    (hqs : ∀ q ∈ qs, 1 ≤ q.weight) (h : qs.Pairwise Precedes) : (insertParticipant p qs).Pairwise Precedes := by
  induction qs with
  | nil => exact List.pairwise_singleton _ _
  | cons q qs ih =>
    obtain ⟨first, rest⟩ := List.pairwise_cons.1 h
    have hq := hqs q List.mem_cons_self
    unfold insertParticipant
    split
    · next before =>
      refine List.pairwise_cons.2 ⟨fun x hx => ?_, h⟩
      rcases List.mem_cons.1 hx with rfl | hx
      · exact precedes_of_before before
      · exact precedes_trans hp hq (hqs x (List.mem_cons_of_mem _ hx)) (precedes_of_before before) (first x hx)
    · next after =>
      refine List.pairwise_cons.2 ⟨fun x hx => ?_, ih (fun x hx => hqs x (List.mem_cons_of_mem _ hx)) rest⟩
      rcases List.mem_cons.1 ((insertParticipant_perm p qs).subset hx) with rfl | hx
      · exact precedes_of_not_before after
      · exact first x hx

theorem orderParticipants_ordered {ps : List Participant} (h : ∀ p ∈ ps, 1 ≤ p.weight) :
    (orderParticipants ps).Pairwise Precedes := by
  induction ps with
  | nil => exact .nil
  | cons p ps ih =>
    have others : ∀ q ∈ ps, 1 ≤ q.weight := fun q hq => h q (List.mem_cons_of_mem _ hq)
    refine insertParticipant_ordered (h p List.mem_cons_self) (fun q hq => ?_) (ih others)
    exact others q ((orderParticipants_perm ps).subset hq)

theorem waterPass_fst (r w : Nat) (ps : List Participant) : (waterPass r w ps).map Prod.fst = ps := by
  induction ps generalizing r w with
  | nil => rfl
  | cons p ps ih => simp [waterPass, ih]

theorem waterPass_demand (r w : Nat) (ps : List Participant) : ∀ x ∈ waterPass r w ps, x.2 ≤ x.1.demand := by
  induction ps generalizing r w with
  | nil => exact fun _ h => absurd h List.not_mem_nil
  | cons p ps ih =>
    intro x hx
    rcases List.mem_cons.1 hx with rfl | hx
    · exact Nat.min_le_left _ _
    · exact ih _ _ x hx

/-- A fair part by weight of what is left is at most what is left. -/
theorem fairPart_le {r p w : Nat} (h : p ≤ w) : r * p / w ≤ r := by
  rcases Nat.eq_zero_or_pos w with rfl | pos
  · simp
  · exact Nat.div_le_of_le_mul (by rw [Nat.mul_comm w r]; exact Nat.mul_le_mul_left r h)

theorem waterPass_sum (r : Nat) (ps : List Participant) :
    ((waterPass r (ps.map Participant.weight).sum ps).map Prod.snd).sum ≤ r := by
  induction ps generalizing r with
  | nil => exact Nat.zero_le _
  | cons p ps ih =>
    have part : r * p.weight / (p.weight + (ps.map Participant.weight).sum) ≤ r := fairPart_le (Nat.le_add_right _ _)
    have rest := ih (r - min p.demand (r * p.weight / (p.weight + (ps.map Participant.weight).sum)))
    simp only [waterPass, List.map_cons, List.sum_cons, Nat.add_sub_cancel_left]
    omega

theorem waterPass_fair (r : Nat) (ps : List Participant) (n : Nat) (p : Participant) (g : Nat)
    (h : (waterPass r (ps.map Participant.weight).sum ps)[n]? = some (p, g)) :
    g = min p.demand ((r - (((waterPass r (ps.map Participant.weight).sum ps).take n).map Prod.snd).sum) * p.weight /
      (((waterPass r (ps.map Participant.weight).sum ps).drop n).map (fun x => x.1.weight)).sum) := by
  induction ps generalizing r n with
  | nil => simp [waterPass] at h
  | cons q ps ih =>
    simp only [waterPass, List.map_cons, List.sum_cons, Nat.add_sub_cancel_left] at h ⊢
    generalize hg : min q.demand (r * q.weight / (q.weight + (ps.map Participant.weight).sum)) = first at h ⊢
    cases n with
    | zero =>
      obtain ⟨rfl, rfl⟩ : q = p ∧ first = g := by simpa using h
      have weights : ((waterPass (r - first) (ps.map Participant.weight).sum ps).map (fun x => x.1.weight)).sum =
          (ps.map Participant.weight).sum := by
        conv_rhs => rw [← waterPass_fst (r - first) (ps.map Participant.weight).sum ps, List.map_map]
        rfl
      simp only [List.take_zero, List.map_nil, List.sum_nil, Nat.sub_zero, List.drop_zero, List.map_cons, List.sum_cons, weights]
      exact hg.symm
    | succ n =>
      rw [List.getElem?_cons_succ] at h
      simpa only [List.take_succ_cons, List.map_cons, List.sum_cons, List.drop_succ_cons, Nat.sub_sub] using ih (r - first) n h

/-! ## The water-fill (R24) -/

theorem waterFill_fits {pool : Nat} {ps : List Participant} (h : (ps.map Participant.demand).sum ≤ pool) :
    waterFill pool ps = ps.map (fun p => (p, p.demand)) := if_pos h

theorem waterFill_short {pool : Nat} {ps : List Participant} (h : pool < (ps.map Participant.demand).sum) :
    waterFill pool ps = waterPass pool ((orderParticipants ps).map Participant.weight).sum (orderParticipants ps) := by
  rw [waterFill, if_neg (Nat.not_le.2 h), ((orderParticipants_perm ps).map Participant.weight).sum_eq]

theorem waterFill_perm (pool : Nat) (ps : List Participant) : ((waterFill pool ps).map Prod.fst).Perm ps := by
  rcases Nat.lt_or_ge pool (ps.map Participant.demand).sum with short | fits
  · rw [waterFill_short short, waterPass_fst]
    exact orderParticipants_perm ps
  · rw [waterFill_fits fits, List.map_map]
    exact .of_eq (List.map_id'' (fun _ => rfl) ps)

theorem waterFill_demand (pool : Nat) (ps : List Participant) : ∀ x ∈ waterFill pool ps, x.2 ≤ x.1.demand := by
  rcases Nat.lt_or_ge pool (ps.map Participant.demand).sum with short | fits
  · rw [waterFill_short short]
    exact waterPass_demand _ _ _
  · rw [waterFill_fits fits]
    exact List.forall_mem_map.2 fun _ _ => Nat.le_refl _

theorem waterFill_sum (pool : Nat) (ps : List Participant) : ((waterFill pool ps).map Prod.snd).sum ≤ pool := by
  rcases Nat.lt_or_ge pool (ps.map Participant.demand).sum with short | fits
  · rw [waterFill_short short]
    exact waterPass_sum _ _
  · rw [waterFill_fits fits, List.map_map]
    exact fits

/-- Settles O21: where the demands fit the pool, all are served; otherwise the pass serves the participants in the order of
`Precedes`, each its fair part. -/
theorem waterFillWithinPool : Obligations.WaterFillWithinPool := by
  intro pool ps weights
  refine ⟨waterFill_sum pool ps, waterFill_demand pool ps, waterFill_fits, fun short => ⟨waterFill_perm pool ps, ?_, ?_⟩⟩
  · rw [waterFill_short short, waterPass_fst]
    exact orderParticipants_ordered weights
  · rw [waterFill_short short]
    exact waterPass_fair pool _

/-! ## The grant record (R22, R23, R27 to R29) -/

/-- The own participant is the only one marked as the station's own (R23). -/
theorem own_participant {code demand weight : Nat} {es : List PeerEntry} {p : Participant}
    (h : p ∈ participants code demand weight es) (own : p.own = true) :
    p = { own := true, code := code, demand := demand, weight := weight } := by
  rcases List.mem_cons.1 h with rfl | h
  · rfl
  · obtain ⟨e, _, rfl⟩ := List.mem_map.1 h
    cases own

/-- The station's own share is that of the own participant in the water-fill (R27). -/
theorem ownFill_mem (pool code demand weight : Nat) (es : List PeerEntry) :
    (({ own := true, code := code, demand := demand, weight := weight } : Participant),
      ownFill (waterFill pool (participants code demand weight es))) ∈ waterFill pool (participants code demand weight es) := by
  have perm := waterFill_perm pool (participants code demand weight es)
  generalize waterFill pool (participants code demand weight es) = fill at perm
  unfold ownFill
  cases hf : fill.find? (fun x => x.1.own) with
  | some x =>
    have mem := List.mem_of_find?_eq_some hf
    have own : x.1.own = true := by simpa using List.find?_some hf
    rw [← own_participant (perm.subset (List.mem_map_of_mem mem)) own]
    exact mem
  | none =>
    have head : ({ own := true, code := code, demand := demand, weight := weight } : Participant) ∈ fill.map Prod.fst :=
      perm.symm.subset List.mem_cons_self
    obtain ⟨x, hx, he⟩ := List.mem_map.1 head
    have := List.find?_eq_none.1 hf x hx
    rw [he] at this
    exact absurd rfl this

theorem cause_eq_none {i : GrantInputs} (session : i.inSession = true) (listed : i.unlisted = false) : i.cause = .none := by
  simp [GrantInputs.cause, session, listed]

theorem cause_noSession {i : GrantInputs} (h : i.inSession = false) : i.cause = .noSession := by simp [GrantInputs.cause, h]

theorem cause_unlisted {i : GrantInputs} (session : i.inSession = true) (h : i.unlisted = true) : i.cause = .unlisted := by
  simp [GrantInputs.cause, session, h]

theorem grant_of_cause {i : GrantInputs} (h : i.cause = .none) :
    (computeGrant i).grant = min (computeGrant i).own (computeGrant i).balance.toNat ∧ (computeGrant i).zeroCause = .none :=
  ⟨if_pos h, h⟩

theorem grant_zero {i : GrantInputs} {c : ZeroCause} (h : i.cause = c) (hc : c ≠ .none) :
    (computeGrant i).grant = 0 ∧ (computeGrant i).zeroCause = c := ⟨if_neg (h ▸ hc), h⟩

/-- A grant above 0 fits beside the reserved amounts in what is available (R28). -/
theorem grant_reserve (i : GrantInputs) :
    (computeGrant i).grant = 0 ∨ (computeGrant i).grant + reservedSum i.entries ≤ (computeGrant i).available := by
  have within := computeGrant_within i
  have balance : (computeGrant i).balance = ((computeGrant i).available : Int) - (reservedSum i.entries : Int) := rfl
  omega

theorem balance_eq (i : GrantInputs) : (computeGrant i).balance = (computeGrant i).available -
    (i.entries.map (fun e => max (e.share.limit : Int) e.share.intent)).sum := by
  have casts : ((reservedSum i.entries : Nat) : Int) = (i.entries.map (fun e => max (e.share.limit : Int) e.share.intent)).sum := by
    simp [reservedSum, PeerEntry.reserved, Nat.cast_list_sum, Function.comp_def]
  rw [← casts]
  rfl

/-- Settles O22: S, A1, B and G by their definitions, g as the own participant's part of the water-fill (`ownFill_mem`), and the two
zero causes. -/
theorem grantWithinReserve : Obligations.GrantWithinReserve := by
  refine ⟨fun i => ?_, fun s => ?_⟩
  · have own := ownFill_mem (computeGrant i).pool i.code i.demand i.weight i.entries
    have share := List.le_sum_of_mem (List.mem_map_of_mem (f := Prod.snd) own)
    refine ⟨rfl, ?_, own, waterFill_demand _ _ _ own, share.trans (waterFill_sum _ _), ?_, ?_, ?_, balance_eq i, grant_reserve i⟩
    · show (computeGrant i).available - frozenSum i.entries = if frozenSum i.entries ≤ (computeGrant i).available then _ else 0
      split
      · rfl
      · omega
    · exact fun none => grant_zero (cause_noSession none) nofun
    · exact fun session runs => grant_zero (cause_unlisted session runs) nofun
    · exact fun session listed => grant_of_cause (cause_eq_none session listed)
  · refine ⟨fun none => grant_zero (cause_noSession ?_) nofun, fun session record timer => grant_zero (cause_unlisted ?_ ?_) nofun⟩
    · rcases none with out | closed
      · simp [State.grantInputs, out]
      · simp [State.grantInputs, closed]
    · simp [State.grantInputs, session, Option.isSome_iff_ne_none, record]
    · simp [State.grantInputs, Option.isSome_iff_ne_none, timer]

/-! ## The split (R63, R64) -/

theorem split_heaterFirst {tPermit : Int} {d : Dmu} (h : splitOrderOf tPermit d.tMin = .heaterFirst) (limit : Nat) :
    d.split tPermit limit = { d with order := .heaterFirst, heaterAllow := min d.heaterDemand limit,
                                     chargerAllow := min d.chargerDemand (limit - min d.heaterDemand limit) } := by
  simp [Dmu.split, h]

theorem split_chargerFirst {tPermit : Int} {d : Dmu} (h : splitOrderOf tPermit d.tMin = .chargerFirst) (limit : Nat) :
    d.split tPermit limit = { d with order := .chargerFirst, chargerAllow := min d.chargerDemand limit,
                                     heaterAllow := min d.heaterDemand (limit - min d.chargerDemand limit) } := by
  simp [Dmu.split, h]

theorem splitOrderOf_heaterFirst (tPermit : Int) (m : Option Int) :
    splitOrderOf tPermit m = .heaterFirst ↔ m = none ∨ ∃ t, m = some t ∧ t < tPermit := by
  cases m <;> simp [splitOrderOf]

/-- Settles O23: the order is `splitOrderOf`, each order serves its first load and then the other, and what both receive is within
the limit (`split_within`). -/
theorem splitWithinLimit : Obligations.SplitWithinLimit := by
  intro tPermit limit d
  refine ⟨?_, fun first => ?_, fun first => ?_, split_within tPermit limit d⟩
  · rw [split_order]
    exact splitOrderOf_heaterFirst tPermit d.tMin
  · rw [split_order] at first
    rw [split_heaterFirst first]
    exact ⟨rfl, rfl⟩
  · rw [split_order] at first
    rw [split_chargerFirst first]
    exact ⟨rfl, rfl⟩

/-! ## The estimates (R91 to R93) -/

theorem toNat_min_rangeTop {x : Int} (h : 0 ≤ x) : ((min Config.rangeTop x.toNat : Nat) : Int) = min 50000 x := by
  unfold Config.rangeTop
  omega

theorem agree_iff (a b : Nat) : agree a b = true ↔ 10 * (max a b - min a b) ≤ max a b := decide_eq_true_iff

/-- Settles O25: each estimate by its three cases, and the test of two estimates by `agree_iff`. -/
theorem estimatesInRange : Obligations.EstimatesInRange := by
  refine ⟨fun ui rc du => ⟨?_, fun low => if_pos low, fun pos high => ?_, fun pos between => ?_⟩,
    fun du di => ⟨?_, fun small => if_pos small, fun large low => ?_, fun large pos => ?_⟩, fun a b => ⟨?_, rfl, rfl⟩⟩
  · unfold busEstimate
    split
    · exact Nat.zero_le _
    · split
      · exact Nat.le_refl _
      · exact Nat.min_le_left _ _
  · rw [busEstimate, if_neg (by omega), if_pos (by omega)]
    rfl
  · rw [busEstimate, if_neg (by omega), if_neg (by omega)]
    refine toNat_min_rangeTop (Int.ediv_nonneg (Int.ediv_nonneg ?_ (by omega)) (by decide))
    exact Int.mul_nonneg (Int.natCast_nonneg rc) pos.le
  · unfold branchEstimate
    split
    · exact Nat.le_refl _
    · split
      · exact Nat.zero_le _
      · exact Nat.min_le_left _ _
  · rw [branchEstimate, if_neg (by omega), if_pos low]
  · rw [branchEstimate, if_neg (by omega), if_neg (by omega)]
    exact toNat_min_rangeTop (Int.ediv_nonneg pos.le (by omega))
  · rw [← agree_iff, trackStep]
    cases agree a b <;> simp

end Sys2Proof.Proofs
end

section
/-! PROOF. The line's frames: stuffing and its removal (R144), the layout of the bytes (R180), and the framer's checks (R154). -/

namespace Sys2Proof.Proofs
open Sys2Proof.Machine

/-! ## Stuffing (R144) -/

/-- A receiver that removes the stuff bits gets the first bits back, as many as it asks for. -/
theorem unstuff_stuff {bits : List Bool} {n : Nat} (run : Nat) (h : n ≤ bits.length) :
    unstuff n run (stuff run bits) = some (bits.take n) := by
  induction bits generalizing run n with
  | nil =>
    obtain rfl : n = 0 := by simpa using h
    simp [unstuff]
  | cons b bs ih =>
    cases n with
    | zero => simp [unstuff]
    | succ n =>
      have rest : n ≤ bs.length := by simpa using h
      by_cases full : run = 8
      · simp [stuff, unstuff, full, ih _ rest]
      · simp [stuff, unstuff, full, ih _ rest]

/-- Short of the last bit on the line, the receiver still waits for a bit of the frame. -/
theorem unstuff_short {bits : List Bool} {n : Nat} (run : Nat) (h : n < (stuff run bits).length) :
    unstuff bits.length run ((stuff run bits).take n) = none := by
  induction bits generalizing run n with
  | nil => simp [stuff] at h
  | cons b bs ih =>
    by_cases full : run = 8
    · rw [stuff, if_pos full] at h ⊢
      match n with
      | 0 => simp [unstuff]
      | 1 => simp [unstuff, full]
      | n + 2 => simp [unstuff, full, ih (n := n) (if b then 1 else 0) (by simpa using h)]
    · rw [stuff, if_neg full] at h ⊢
      match n with
      | 0 => simp [unstuff]
      | n + 1 => simp [unstuff, full, ih (n := n) (if b then run + 1 else 0) (by simpa using h)]

/-- A dominant bit lies in no run of recessive bits: a run stands before it or after it. -/
theorem run_beside_dominant {n : Nat} {l r : List Bool} (h : List.replicate n true <:+: l ++ false :: r) :
    List.replicate n true <:+: l ∨ List.replicate n true <:+: r := by
  obtain ⟨before, after, eq⟩ := h
  rw [List.append_assoc] at eq
  rcases List.append_eq_append_iff.1 eq with ⟨m, hl, hm⟩ | ⟨m, hb, hm⟩
  · rcases List.append_eq_append_iff.1 hm with ⟨k, hk, -⟩ | ⟨k, hk, hf⟩
    · exact .inl ⟨before, k, by simp [hl, hk]⟩
    · cases k with
      | nil => exact .inl ⟨before, [], by simp_all⟩
      | cons b k =>
        obtain ⟨rfl, -⟩ := List.cons_eq_cons.1 hf
        have : false ∈ List.replicate n true := by simp [hk]
        simp at this
  · cases m with
    | nil => 
      cases n with
      | zero => exact .inl ⟨[], l, by simp⟩
      | succ n => simp [List.replicate_succ] at hm
    | cons b m =>
      obtain ⟨-, rfl⟩ := List.cons_eq_cons.1 hm
      exact .inr ⟨m, after, by simp⟩

/-- Stuffing keeps every run of recessive bits within 8, those that stand before counted. -/
theorem stuff_runs (bits : List Bool) {run : Nat} (h : run ≤ 8) :
    ¬ List.replicate 9 true <:+: List.replicate run true ++ stuff run bits := by
  have short {k : Nat} (hk : k ≤ 8) : ¬ List.replicate 9 true <:+: List.replicate k true := fun run9 => by
    have := run9.length_le
    simp at this
    omega
  induction bits generalizing run with
  | nil => simpa [stuff] using short h
  | cons b bs ih =>
    have next {k : Nat} (hk : k + 1 ≤ 8) : ¬ List.replicate 9 true <:+:
        List.replicate k true ++ b :: stuff (if b then k + 1 else 0) bs := by
      cases b with
      | true => simpa [List.replicate_succ'] using ih hk
      | false =>
        intro run9
        rcases run_beside_dominant run9 with before | after
        · exact short (by omega) before
        · exact ih (Nat.zero_le 8) (by simpa using after)
    by_cases full : run = 8
    · rw [stuff, if_pos full]
      intro run9
      rcases run_beside_dominant run9 with before | after
      · exact short h before
      · exact next (k := 0) (by omega) (by simpa using after)
    · rw [stuff, if_neg full]
      exact next (by omega)

/-- Settles O18: the receiver's bits, the bound on the runs and the bits it still needs, each by induction on the bits. -/
theorem stuffingUndone : Obligations.StuffingUndone := fun bits =>
  ⟨by simpa using unstuff_stuff (bits := bits) 0 le_rfl, by simpa using stuff_runs bits (Nat.zero_le 8),
    fun _ => unstuff_short 0⟩

/-! ## Bits and bytes -/

theorem bitsByte_byteBits (b : Byte) : bitsByte (byteBits b) = b := by
  revert b
  decide

@[simp] theorem byteBits_length (b : Byte) : (byteBits b).length = 8 := rfl

theorem bytesBits_length (bs : List Byte) : (bytesBits bs).length = 8 * bs.length := by
  induction bs with
  | nil => rfl
  | cons b bs ih =>
    simp only [bytesBits, List.flatMap_cons, List.length_append, byteBits_length, List.length_cons] at ih ⊢
    omega

theorem bitsBytes_bytesBits {bs : List Byte} {n : Nat} (h : n ≤ bs.length) :
    bitsBytes n ((bytesBits bs).take (8 * n)) = bs.take n := by
  induction bs generalizing n with
  | nil =>
    obtain rfl : n = 0 := by simpa using h
    rfl
  | cons b bs ih =>
    cases n with
    | zero => rfl
    | succ n =>
      have head : bytesBits (b :: bs) = byteBits b ++ bytesBits bs := rfl
      have room : 8 * (n + 1) = (byteBits b).length + 8 * n := by simp; omega
      have first : (byteBits b ++ (bytesBits bs).take (8 * n)).take 8 = byteBits b := List.take_left' (byteBits_length b)
      have after : (byteBits b ++ (bytesBits bs).take (8 * n)).drop 8 = (bytesBits bs).take (8 * n) :=
        List.drop_left' (byteBits_length b)
      rw [head, room, List.take_length_add_append, bitsBytes, first, after, bitsByte_byteBits, ih (by simpa using h), List.take_succ_cons]

@[simp] theorem beBytes_length (n v : Nat) : (beBytes n v).length = n := by
  induction n with
  | zero => rfl
  | succ n ih => simp [beBytes, ih]

theorem ofBytes_cons (b : Byte) (bs : List Byte) : ofBytes (b :: bs) = b.toNat * 256 ^ bs.length + ofBytes bs := by
  have run (a : Nat) : bs.foldl (fun a b => a * 256 + b.toNat) a = a * 256 ^ bs.length + ofBytes bs := by
    induction bs generalizing a with
    | nil => simp [ofBytes]
    | cons c cs ih =>
      have first := ih (0 * 256 + c.toNat)
      simp only [ofBytes, List.foldl_cons, List.length_cons] at ih first ⊢
      rw [ih, first, pow_succ]
      ring
  simpa [ofBytes] using run (0 * 256 + b.toNat)

theorem ofBytes_beBytes (n v : Nat) : ofBytes (beBytes n v) = v % 256 ^ n := by
  induction n with
  | zero => simp [beBytes, ofBytes, Nat.mod_one]
  | succ n ih =>
    have digits : v % (256 ^ n * 256) = v % 256 ^ n + 256 ^ n * (v / 256 ^ n % 256) := Nat.mod_mul
    rw [beBytes, ofBytes_cons, ih, beBytes_length, BitVec.toNat_ofNat, pow_succ _ n, digits, Nat.mul_comm, Nat.add_comm]

/-- A number that fits its bytes is read back from them. -/
theorem fieldAt_beBytes {n v : Nat} (after : List Byte) (fits : v < 256 ^ n) : fieldAt (beBytes n v ++ after) 0 n = v := by
  rw [fieldAt, List.drop_zero, List.take_left' (beBytes_length n v), ofBytes_beBytes, Nat.mod_eq_of_lt fits]

theorem fieldAt_beBytes_last {n v : Nat} (fits : v < 256 ^ n) : fieldAt (beBytes n v) 0 n = v := by
  simpa using fieldAt_beBytes [] fits

theorem fieldAt_past {k offset : Nat} (n v : Nat) (after : List Byte) (h : k ≤ offset) :
    fieldAt (beBytes k v ++ after) offset n = fieldAt after (offset - k) n := by
  rw [fieldAt, List.drop_append, List.drop_eq_nil_of_le (by simpa using h), beBytes_length, List.nil_append, fieldAt]

/-! ## The layout of a frame (R144, R145, R180) -/

/-- A payload whose fields fit the bytes that R180 gives them. -/
def Fits : Payload → Prop
  | .announce x => x.fits = true
  | .epoch n half => n ≤ 255 ∧ half ≤ 65535
  | .finding n result r v => n ≤ 255 ∧ result ≤ 255 ∧ r ≤ 65535 ∧ v ≤ 65535
  | .claim n rb => n ≤ 255 ∧ rb ≤ 65535
  | .leave => True

theorem flagsOf_flagBits (f : PeerFlags) : flagsOf (flagBits f) = f := by
  obtain ⟨session, charging, heating⟩ := f
  revert session charging heating
  decide

theorem flagBits_lt (f : PeerFlags) : flagBits f < 256 := by
  obtain ⟨session, charging, heating⟩ := f
  revert session charging heating
  decide

theorem payloadOf_bytes {p : Payload} (h : Fits p) : payloadOf p.kind p.bytes = p := by
  cases p with
  | announce x =>
    simp only [Fits, ShareFields.fits, fitsPair, fitsByte, Bool.and_eq_true, decide_eq_true_eq] at h
    obtain ⟨⟨⟨⟨feeder, demand⟩, weight⟩, limit⟩, intent⟩ := h
    have flags := flagBits_lt x.flags
    simp (disch := omega) [payloadOf, Payload.kind, Payload.bytes, fieldAt_beBytes, fieldAt_beBytes_last, fieldAt_past, flagsOf_flagBits]
  | epoch n half =>
    obtain ⟨number, time⟩ := h
    simp (disch := omega) [payloadOf, Payload.kind, Payload.bytes, fieldAt_beBytes, fieldAt_beBytes_last, fieldAt_past]
  | finding n result r v =>
    obtain ⟨number, outcome, resistance, voltage⟩ := h
    simp (disch := omega) [payloadOf, Payload.kind, Payload.bytes, fieldAt_beBytes, fieldAt_beBytes_last, fieldAt_past]
  | claim n rb =>
    obtain ⟨number, branch⟩ := h
    simp (disch := omega) [payloadOf, Payload.kind, Payload.bytes, fieldAt_beBytes, fieldAt_beBytes_last, fieldAt_past]
  | leave => rfl

theorem payloadOf_kind (k : FrameKind) (bs : List Byte) : (payloadOf k bs).kind = k := by cases k <;> rfl

theorem kindOfByte_byte (k : FrameKind) : kindOfByte k.byte = some k := by cases k <;> rfl

theorem payload_length (p : Payload) : p.bytes.length + 5 = p.kind.length := by
  cases p <;> simp [Payload.bytes, Payload.kind, FrameKind.length]

theorem body_length (f : Frame) : f.body.length + 2 = f.payload.kind.length := by
  have := payload_length f.payload
  simp [Frame.body]
  omega

theorem bytes_length (f : Frame) : f.bytes.length = f.payload.kind.length := by
  simp [Frame.bytes, body_length]

/-- The receiver reads a frame's kind from its header. -/
theorem lineKind_bits (f : Frame) : lineKind (stuff 0 (bytesBits f.bytes)) = some f.payload.kind := by
  have room : 3 ≤ f.bytes.length := by rw [bytes_length, ← payload_length]; omega
  have head := unstuff_stuff (bits := bytesBits f.bytes) (n := 24) 0 (by rw [bytesBits_length]; omega)
  have bytes := bitsBytes_bytesBits room
  rw [show 8 * 3 = 24 from rfl] at bytes
  rw [lineKind, head]
  simp only [bytes]
  exact kindOfByte_byte _

/-- The receiver reads a frame whose bits stand whole on the line by its kind: the bytes it sees are the frame's. -/
theorem readFrame_bits (depot : Nat) (f : Frame) (header : headerOk depot (fieldAt f.bytes 1 1) (fieldAt f.bytes 2 1) = true) :
    readFrame depot f.lineBits =
      some { code := fieldAt f.bytes 1 1, depot := fieldAt f.bytes 2 1, payload := payloadOf f.payload.kind f.payload.bytes } := by
  have count : 8 * f.payload.kind.length = (bytesBits f.bytes).length := by rw [bytesBits_length, bytes_length]
  have whole := unstuff_stuff (bits := bytesBits f.bytes) 0 le_rfl
  have bytes := bitsBytes_bytesBits (bytes_length f).ge
  rw [count, List.take_length, List.take_of_length_le (bytes_length f).le] at bytes
  rw [List.take_length, ← count] at whole
  have body : f.bytes.take (f.payload.kind.length - 2) = f.body := by
    rw [← body_length, Nat.add_sub_cancel, Frame.bytes, List.take_left]
  have check : fieldAt f.bytes (f.payload.kind.length - 2) 2 = (crc16 f.body).toNat := by
    have fits : (crc16 f.body).toNat < 256 ^ 2 := (crc16 f.body).isLt
    rw [← body_length, Nat.add_sub_cancel, ← fieldAt_beBytes_last fits, Frame.bytes, fieldAt, List.drop_left]
    rfl
  have payload : f.body.drop 3 = f.payload.bytes := rfl
  simp only [readFrame, Frame.lineBits, lineKind_bits, Bool.false_eq_true, if_false, whole, bytes, body, payload]
  rw [if_pos ⟨header, check⟩]

/-- Settles O17: the framer finds the kind, the bytes and the check value of the frame sent (`readFrame_bits`), and each field in the
bytes it stands in. -/
theorem frameReadBack : Obligations.FrameReadBack := by
  intro f depot header depotFits fits
  have same : payloadOf f.payload.kind f.payload.bytes = f.payload := payloadOf_bytes (by cases f with | mk c d p => cases p <;> exact fits)
  obtain ⟨low, high, own⟩ : 1 ≤ f.code ∧ f.code ≤ 63 ∧ f.depot = depot := by simpa [headerOk] using header
  obtain ⟨rest, layout⟩ : ∃ rest, f.bytes = f.payload.kind.byte :: (beBytes 1 f.code ++ (beBytes 1 f.depot ++ rest)) :=
    ⟨_, by simp only [Frame.bytes, Frame.body, List.append_assoc, List.cons_append, List.nil_append]; rfl⟩
  have code : fieldAt f.bytes 1 1 = f.code := by
    rw [layout]
    exact fieldAt_beBytes _ (by omega)
  have depotCode : fieldAt f.bytes 2 1 = f.depot := by
    rw [layout]
    exact (fieldAt_past (offset := 1) 1 f.code _ le_rfl).trans (fieldAt_beBytes _ (by omega))
  rw [readFrame_bits depot f (by rw [code, depotCode]; exact header), code, depotCode, same]

/-! ## The framer (R154) -/

/-- What the framer has found where it hands a frame on. -/
theorem readFrame_sound {depot : Nat} {line : List Bool} {f : Frame} (h : readFrame depot line = some f) :
    ∃ bits k all, line = false :: bits ∧ lineKind bits = some k ∧ unstuff (8 * k.length) 0 bits = some all ∧
      headerOk depot f.code f.depot = true ∧
      fieldAt (bitsBytes k.length all) (k.length - 2) 2 = (crc16 ((bitsBytes k.length all).take (k.length - 2))).toNat ∧
      f.payload.kind = k := by
  unfold readFrame at h
  split at h
  · cases h
  next start bits =>
    split_ifs at h with dominant
    split at h
    · cases h
    next k kind =>
      split at h
      · cases h
      next all whole =>
        dsimp only at h
        split_ifs at h with sound
        cases h
        exact ⟨bits, k, all, by simp [dominant], kind, whole, sound.1, sound.2, payloadOf_kind _ _⟩

/-- Settles O19: the framer's own checks, read off where it hands a frame on. -/
theorem framerHandsOnSoundFrames : Obligations.FramerHandsOnSoundFrames := by
  intro depot line f h
  obtain ⟨bits, k, all, starts, -, whole, header, check, rfl⟩ := readFrame_sound h
  obtain ⟨low, high, own⟩ : 1 ≤ f.code ∧ f.code ≤ 63 ∧ f.depot = depot := by simpa [headerOk] using header
  exact ⟨own, low, high, bits, starts, all, whole, check⟩

end Sys2Proof.Proofs
end

section
/-! PROOF. Time: what its passing changes, the moment a command carries (log 2), and the step on an empty queue (log 3). -/

namespace Sys2Proof.Proofs
open Sys2Proof.Machine

/-- Every command is an event at the moment it is put at; its work does not look at that moment. -/
theorem exec_atMoment (c : Instr) :
    ∃ tests work, ∀ m s, exec (c.atMoment m) s = .next (eventTested m tests work s) := by
  cases c
  case staggerTimerExpiry t => exact ⟨_, _, fun _ _ => rfl⟩
  case attemptStart t => exact ⟨fun _ => false, attemptStarts t.recessive, fun _ _ => rfl⟩
  case temperatureConversion t zone conversion => exact ⟨_, _, fun _ _ => rfl⟩
  all_goals exact ⟨fun _ => false, _, fun _ _ => rfl⟩

theorem atMoment_moment (c : Instr) : c.atMoment c.moment = c := by cases c <;> rfl

/-- A command at a moment to come acts as the same command at the present moment of the state to which time has passed. -/
theorem exec_elapsed (c : Instr) (s : State) :
    exec c s = exec (c.atMoment (elapse c.moment s).now) (elapse c.moment s) := by
  obtain ⟨tests, work, run⟩ := exec_atMoment c
  have here := run c.moment s
  rw [atMoment_moment] at here
  rw [here, run, eventTested, eventTested, elapse_passed (t := (elapse c.moment s).now) le_rfl]

/-- What time alone changes (R1, R9, R10, R77, R158). -/
theorem elapse_ahead {t : Nat} {s : State} (h : s.now < t) : elapse t s =
    { s with
      now := t
      ptb := { s.ptb with
        entries := s.ptb.entries.map (fun e => { e with silence := min (e.silence + (t - s.now)) (6 * s.cfg.ta * 1000) }) }
      htr := { s.htr with
        zones := s.htr.zones.map (fun z => if z.state = .heating then
          { z with heatTime := min (z.heatTime + (t - s.now)) (s.cfg.doseLimit * 1000000) } else z) }
      stc := { s.stc with clockMicros := if s.stc.clockSet then s.stc.clockMicros + (t - s.now) else s.stc.clockMicros } } := by
  have reached : s.now + (t - s.now) = t := Nat.add_sub_cancel' h.le
  have warms : Zone.warm s.cfg.doseLimit (t - s.now) = fun z => if z.state = .heating then
      { z with heatTime := min (z.heatTime + (t - s.now)) (s.cfg.doseLimit * 1000000) } else z := by
    funext z
    simp [Zone.warm, Zone.heats]
  rw [elapse, if_neg (Nat.not_le.2 h), passTime, warms, reached]
  rfl

/-- The command of the first event of the block's own that is due. -/
theorem dueCommand_due {s : State} {c : Instr} (h : dueCommand s = some c) : OwnEventDue s c := by
  obtain ⟨o, mem, found⟩ := List.exists_of_findSome?_eq_some h
  simp only [List.mem_cons, List.not_mem_nil, or_false] at mem
  rcases mem with rfl | rfl | mem
  · exact ageCommand_due found
  · exact doseCommand_due found
  · rcases mem with rfl | rfl | rfl | rfl | rfl | rfl | rfl | rfl | rfl | rfl
    all_goals
      obtain ⟨passed, rfl⟩ := whenDue_eq_some.1 found
      simpa [OwnEventDue, due_iff_passed, and_comm] using passed

theorem whenDue_eq_none {b : Bool} {c : Instr} : whenDue b c = none ↔ ¬ b = true := by cases b <;> simp [whenDue]

/-- None is due where no event of the block's own is. -/
theorem dueCommand_none {s : State} (h : dueCommand s = none) (c : Instr) : ¬ OwnEventDue s c := by
  simp only [dueCommand, List.findSome?_eq_none_iff, List.forall_mem_cons, id, whenDue_eq_none, Bool.and_eq_true,
    due_iff_passed, decide_eq_true_eq] at h
  obtain ⟨age, dose, unlisted, hold, announce, listen, stagger, idle, epoch, loss, claim, backoff, -⟩ := h
  cases c
  case removalThreshold t code => exact fun ⟨_, e, mem, _, silent⟩ => (ageCommand_none age e mem).1 silent
  case staleThreshold t code => exact fun ⟨_, e, mem, _, silent⟩ => (ageCommand_none age e mem).2 silent
  case doseLimit t z => exact fun ⟨_, heats⟩ => doseCommand_none dose z heats
  case unlistedPeerTimerExpiry t => exact fun ⟨_, passed⟩ => unlisted passed
  case holdTimerExpiry t => exact fun ⟨_, passed⟩ => hold passed
  case announceTimerExpiry t => exact fun ⟨_, passed⟩ => announce passed
  case listenWindowExpiry t => exact fun ⟨_, state, passed⟩ => listen ⟨passed, state⟩
  case staggerTimerExpiry t => exact fun ⟨_, passed⟩ => stagger passed
  case idleTimerExpiry t => exact fun ⟨_, passed⟩ => idle passed
  case epochTimerExpiry t => exact fun ⟨_, passed⟩ => epoch passed
  case lossDeadline t => exact fun ⟨_, state, passed⟩ => loss ⟨passed, state⟩
  case claimWindowExpiry t => exact fun ⟨_, state, passed⟩ => claim ⟨passed, state⟩
  case backoffEnd t => exact fun ⟨_, passed⟩ => backoff passed
  all_goals exact id

/-- Settles O3: what time changes (`elapse_ahead`), the moment of a command (`exec_elapsed`) and the idle block's command. -/
theorem timeAndIdleSteps : Obligations.TimeAndIdleSteps := by
  refine ⟨fun c s => ⟨exec_elapsed c s, elapse_passed⟩, fun t s => ⟨elapse_passed, fun ahead => ⟨elapse_ahead ahead, ?_⟩⟩,
    fun s empty => ⟨fun c due => ⟨dueCommand_due due, ?_⟩, fun none => ⟨dueCommand_none none, ?_⟩⟩⟩
  · rw [elapse_ahead ahead, clock]
    by_cases set : s.stc.clockSet = true
    · simp [set, Config.clockTop]
    · simp [set]
  · simp only [step, empty, idleStep, due]
  · simp only [step, empty, idleStep, none]
    rfl

end Sys2Proof.Proofs
end

section
/-! PROOF. The vehicle link: the transaction (R170), what discards or refuses a request (R171, R173, R182), and the requests that read. -/

namespace Sys2Proof.Proofs
open Sys2Proof.Machine

/-! ## The transaction (R170) -/

/-- The status byte's fields, whatever they hold, stand side by side. -/
theorem status_bits (busy full attn : Bool) (op : OpState) :
    let b : Byte := BitVec.ofNat 8 (128 * busy.toNat + 64 * full.toNat + 32 * attn.toNat
      + 16 * (decide (op = .halted)).toNat + op.position)
    b.getLsbD 7 = busy ∧ b.getLsbD 6 = full ∧ b.getLsbD 5 = attn ∧ b.getLsbD 4 = decide (op = .halted) ∧
      b.getLsbD 3 = false ∧ b.toNat % 8 = op.position := by
  cases op <;> revert busy full attn <;> decide

theorem pinAttn_iff (s : State) : pinAttn s = true ↔
    s.vlk.marks.fault = true ∨ s.vlk.marks.sessionClosed = true ∨ s.vlk.marks.stateChanged = true ∨
      s.vlk.marks.traceFrozen = true ∨ s.vlk.marks.frameDropped = true := by
  simp [pinAttn, Marks.any, or_assoc]

theorem shiftOut_empty {n : Nat} (status : Byte) (h : 1 ≤ n) : shiftOut n status none = status :: List.replicate (n - 1) 0#8 := by
  obtain ⟨n, rfl⟩ := Nat.exists_eq_add_of_le' h
  simp [shiftOut]

/-- As long as the record's bytes last, what follows them plays no part. -/
theorem shiftOut_record {n : Nat} (status : Byte) {r : TermRecord} (h : n ≤ 1 + r.bytes.length) :
    shiftOut n status (some r) = (status :: r.bytes).take n := by
  rw [shiftOut, ← List.cons_append, List.take_append_of_le_length (by simpa [Nat.add_comm] using h)]

/-- An event of the link whose work leaves the heater and the shares of current alone is that work. -/
theorem event_link {t : Nat} {f : State → State} {s : State} {v : Vlk} (h : f (elapse t s) = { elapse t s with vlk := v }) :
    event t f s = { elapse t s with vlk := v } := by
  rw [event_quiet (by rw [h]) (by rw [h]), h]

theorem exec_transaction (t n : Nat) (s : State) : exec (.transaction t n) s = .next { elapse t s with vlk := { (elapse t s).vlk with
    txn := some { status := statusByte (elapse t s), clocked := n }
    shiftedOut := shiftOut n (statusByte (elapse t s)) (elapse t s).vlk.slot
    slot := slotAfter n (elapse t s).vlk.slot } } :=
  congrArg Host.Outcome.next (event_link (f := openTransaction n) rfl)

/-- Settles O26: the fields of the status byte (`status_bits`), and what is shifted out by what the slot holds. -/
theorem transactionShiftsOut : Obligations.TransactionShiftsOut := by
  refine ⟨fun s => ?_, fun t n s => ⟨exec_transaction t n s, fun empty h => ?_, fun r full h => ?_, fun r full => ?_, fun empty => ?_⟩⟩
  · obtain ⟨busy, full, attn, halted, zero, op⟩ := status_bits s.vlk.inProgress.isSome s.vlk.slot.isSome s.vlk.marks.any s.stc.op
    exact ⟨busy, full, attn, halted, zero, op, pinAttn_iff s⟩
  · rw [empty, shiftOut_empty _ h]
  · rw [full, shiftOut_record _ h]
  · rw [full]
    exact ⟨fun whole => if_pos whole, fun part => if_neg (by omega)⟩
  · rw [empty]
    rfl

/-! ## What discards a request (R171) -/

/-- The transaction ends and nothing else happens. -/
theorem event_closes {t : Nat} {f : State → State} {s : State} (h : f (elapse t s) = closeTransaction (elapse t s)) :
    event t f s = { elapse t s with vlk := { (elapse t s).vlk with txn := none } } := event_link h

theorem exec_request {q : Byte × (Nat → Byte → List Byte → Instr)} (hq : q ∈ requests) (t : Nat) (tag : Byte) (params : List Byte) :
    ∃ serve, ∀ s, exec (q.2 t tag params) s = .next (event t (takeRequest q.1 tag params serve) s) := by
  simp only [requests, List.mem_cons, List.not_mem_nil, or_false] at hq
  rcases hq with rfl | rfl | rfl | rfl | rfl | rfl | rfl | rfl | rfl | rfl | rfl | rfl | rfl | rfl | rfl
  all_goals exact ⟨_, fun _ => rfl⟩

theorem takeRequest_discarded {code tag : Byte} {params : List Byte} {serve : State → State} {s : State} {x : Txn}
    (hx : s.vlk.txn = some x)
    (h : x.clocked < 3 + params.length ∨ (busyBit x.status = true ∧ code ≠ codeSoftReset) ∨ s.vlk.slot ≠ none) :
    takeRequest code tag params serve s = closeTransaction s := by
  have cut : discarded code x params s.vlk.slot = true := by
    simpa [discarded, or_assoc, Option.isSome_iff_ne_none] using h
  simp [takeRequest, hx, cut]

theorem takeRaw_received {bytes : List Byte} {s : State} {x : Txn} (hx : s.vlk.txn = some x) :
    takeRaw bytes s = dealWith x (received x.clocked bytes) (closeTransaction s) := by simp [takeRaw, hx]

/-- As many bytes are received as were clocked (log 12). -/
theorem received_length (clocked : Nat) (bytes : List Byte) : (received clocked bytes).length = clocked := by
  simp [received]
  omega

theorem dealWith_discarded {x : Txn} {bs : List Byte} {s : State}
    (h : bs.length < 3 + (bs.getD 2 0).toNat ∨ bs.getD 0 0 = 0#8 ∨ (busyBit x.status = true ∧ bs.getD 0 0 ≠ codeSoftReset) ∨
      s.vlk.slot ≠ none) : dealWith x bs s = s := by
  unfold dealWith
  by_cases short : bs.length < 3 + (bs.getD 2 0).toNat
  · exact if_pos short
  rw [if_neg short]
  by_cases nop : bs.getD 0 0 = 0#8
  · exact if_pos nop
  rw [if_neg nop]
  by_cases busy : (busyBit x.status && decide (bs.getD 0 0 ≠ codeSoftReset)) = true
  · exact if_pos busy
  rw [if_neg busy]
  have full : s.vlk.slot.isSome = true := by
    rw [Option.isSome_iff_ne_none]
    exact ((h.resolve_left short).resolve_left nop).resolve_left (by simpa using busy)
  exact if_pos full

/-- Settles O28: the three cases of `discarded`, and those of a raw transfer, each leaves only the transaction ended. -/
theorem requestDiscarded : Obligations.RequestDiscarded := by
  constructor
  · intro q hq t tag params x s s0 hx cut
    obtain ⟨serve, run⟩ := exec_request hq t tag params
    rw [run, event_closes (takeRequest_discarded hx cut)]
  · intro t bytes x s s0 hx bs cut
    have work : takeRaw bytes s0 = closeTransaction s0 := by
      rw [takeRaw_received hx]
      refine dealWith_discarded ?_
      rw [received_length]
      exact cut
    exact congrArg Host.Outcome.next (event_closes work)

/-! ## What is refused (R171, R173, R182) -/

theorem serviceOf_unknown {code : Byte} (tag : Byte) (params : List Byte) (h : 15 < code.toNat) : serviceOf code tag params = none := by
  have ne (c : Byte) (hc : c.toNat ≤ 15) : code ≠ c := by
    rintro rfl
    omega
  rw [serviceOf, if_neg (ne _ (by decide)), if_neg (ne _ (by decide)), if_neg (ne _ (by decide)), if_neg (ne _ (by decide)),
    if_neg (ne _ (by decide)), if_neg (ne _ (by decide)), if_neg (ne _ (by decide)), if_neg (ne _ (by decide)),
    if_neg (ne _ (by decide)), if_neg (ne _ (by decide)), if_neg (ne _ (by decide)), if_neg (ne _ (by decide)),
    if_neg (ne _ (by decide)), if_neg (ne _ (by decide)), if_neg (ne _ (by decide))]

theorem dealWith_unknown {x : Txn} {bs : List Byte} {s : State} (whole : 3 + (bs.getD 2 0).toNat ≤ bs.length)
    (unknown : 15 < (bs.getD 0 0).toNat) (free : busyBit x.status = false) (empty : s.vlk.slot = none) :
    dealWith x bs s = reply (bs.getD 0 0) (bs.getD 1 0) .range [] s := by
  have noNop : ¬ bs.getD 0 0 = 0#8 := fun h => by rw [h] at unknown; exact absurd unknown (by decide)
  rw [dealWith, if_neg (Nat.not_lt.2 whole), if_neg noNop, if_neg (by simp [free]), if_neg (by simp [empty]),
    serviceOf_unknown _ _ unknown]

/-- Settles O27: NOP ends the transaction; no service has a code above 0Fh (`serviceOf_unknown`). -/
theorem nopAndUnknownCode : Obligations.NopAndUnknownCode := by
  refine ⟨fun t s => congrArg Host.Outcome.next (event_closes rfl), ?_⟩
  intro t bytes x s s0 hx bs whole unknown free empty
  have work : takeRaw bytes s0 = reply (bs.getD 0 0) (bs.getD 1 0) .range [] (closeTransaction s0) := by
    rw [takeRaw_received hx]
    exact dealWith_unknown (by rwa [received_length]) unknown free empty
  exact congrArg Host.Outcome.next (event_link work)

/-- The table of R173, row by row. -/
theorem served_iff {code : Byte} {ops : List OpState} (h : (code, ops) ∈ servedStates) (op : OpState) :
    served code op = true ↔ op ∈ ops := by
  simp only [servedStates, List.mem_cons, List.not_mem_nil, or_false, Prod.mk.injEq] at h
  rcases h with h | h | h | h | h | h | h | h | h | h | h | h | h | h | h
  all_goals
    obtain ⟨rfl, rfl⟩ := h
    cases op <;> decide

/-- The lengths of R182, row by row. -/
theorem paramLength_eq {code : Byte} {n : Nat} (h : (code, n) ∈ requestLengths) : paramLength code = n := by
  simp only [requestLengths, List.mem_cons, List.not_mem_nil, or_false, Prod.mk.injEq] at h
  rcases h with h | h | h | h | h | h | h | h | h | h | h | h | h | h | h
  all_goals
    obtain ⟨rfl, rfl⟩ := h
    rfl

theorem handOver_notNow {code tag : Byte} {params : List Byte} {serve : State → State} {s : State}
    (h : served code s.stc.op = false) : handOver code tag params serve s = reply code tag .notNow [] s := by
  simp [handOver, h]

theorem handOver_range {code tag : Byte} {params : List Byte} {serve : State → State} {s : State}
    (h : served code s.stc.op = true) (hl : params.length ≠ paramLength code) :
    handOver code tag params serve s = reply code tag .range [] s := by simp [handOver, h, hl]

/-- Settles O29: by the tables of R173 (`served_iff`) and R182 (`paramLength_eq`). -/
theorem requestRefused : Obligations.RequestRefused := by
  intro q hq t tag params s s0 ready
  obtain ⟨serve, run⟩ := exec_request hq t tag params
  refine ⟨fun ops row out => ?_, fun ops n row at_ lengths short => ?_⟩
  · have refused : served q.1 s0.stc.op = false := by
      rw [← Bool.not_eq_true, served_iff row]
      exact out
    have work : takeRequest q.1 tag params serve s0 = reply q.1 tag .notNow [] (closeTransaction s0) := by
      rw [takeRequest_ready ready, handOver_notNow (s := closeTransaction s0) refused]
    exact (run s).trans (congrArg Host.Outcome.next (event_link work))
  · have ok : served q.1 s0.stc.op = true := (served_iff row _).2 at_
    have wrong : params.length ≠ paramLength q.1 := by rwa [paramLength_eq lengths]
    have work : takeRequest q.1 tag params serve s0 = reply q.1 tag .range [] (closeTransaction s0) := by
      rw [takeRequest_ready ready, handOver_range (s := closeTransaction s0) ok wrong]
    exact (run s).trans (congrArg Host.Outcome.next (event_link work))

/-! ## The requests that read -/

/-- Settles O30: READ STATUS is served in every state and without parameters. -/
theorem readStatusAnswers : Obligations.ReadStatusAnswers := fun _ tag _ ready =>
  congrArg Host.Outcome.next
    (event_takeRequest_served (serve := serveReadStatus tag) ready rfl rfl (fun _ => rfl) (fun _ => rfl))

theorem served_readPeers {op : OpState} (h : op = .listening ∨ op = .linked ∨ op = .session) : served codeReadPeers op = true := by
  rcases h with rfl | rfl | rfl <;> rfl

/-- Settles O31: the three reads put their data into the slot. -/
theorem pureReadsAnswer : Obligations.PureReadsAnswer := fun _ tag _ ready =>
  ⟨congrArg Host.Outcome.next
      (event_takeRequest_served (serve := serveReadTrim tag) ready rfl rfl (fun _ => rfl) (fun _ => rfl)),
    congrArg Host.Outcome.next
      (event_takeRequest_served (serve := serveReadFaults tag) ready rfl rfl (fun _ => rfl) (fun _ => rfl)),
    fun h => congrArg Host.Outcome.next
      (event_takeRequest_served (serve := serveReadPeers tag) ready (served_readPeers h) rfl (fun _ => rfl) (fun _ => rfl))⟩

/-- Settles O32: the trace as it stands is the data, and the mark and the count are cleared. -/
theorem readTraceAnswers : Obligations.ReadTraceAnswers := fun _ tag _ ready =>
  congrArg Host.Outcome.next
    (event_takeRequest_served (serve := serveReadTrace tag) ready rfl rfl (fun _ => rfl) (fun _ => rfl))

/-- What READ SESSION answers with, by what its selector gives (R142). -/
theorem exec_readSession_ready {t : Nat} {tag sel : Byte} {s : State} {res : Result} {bytes : List Byte}
    (ready : RequestReady [sel] (elapse t s)) (h : readSelected (elapse t s).ses sel.toNat = (res, bytes)) :
    exec (.readSession t tag [sel]) s = .next { elapse t s with vlk := { (elapse t s).vlk with
      txn := none
      slot := some { tag := tag, code := codeReadSession, result := res, clampMask := 0,
                     data := if res = .range then [] else bytes ++ word (elapse t s).ses.log.length } } } := by
  have work := event_takeRequest_served (code := codeReadSession) (tag := tag) (serve := serveReadSession tag [sel]) ready rfl rfl
    (fun _ => rfl) (fun _ => rfl)
  have selector : fieldAt [sel] 0 1 = sel.toNat := by simp [fieldAt, ofBytes]
  rw [serveReadSession, selector, closeTransaction_ses, sessionData, h] at work
  exact congrArg Host.Outcome.next work

/-- Settles O33: the selector's five cases. -/
theorem readSessionAnswers : Obligations.ReadSessionAnswers := by
  intro t tag sel s s0 ready answered
  refine ⟨fun c low found => ?_, fun low beyond => ?_, fun o p hs ho hp => ?_, fun hs ho => ?_, fun high other => ?_⟩
  · have selected : readSelected s0.ses sel.toNat = (.done, c.bytes) := by
      have notOpen : ¬ sel.toNat = selectorOpen := by simp only [selectorOpen]; omega
      rw [readSelected, if_neg notOpen, if_pos low, found]
    exact exec_readSession_ready ready selected
  · have selected : readSelected s0.ses sel.toNat = (.noRecord, []) := by
      have notOpen : ¬ sel.toNat = selectorOpen := by simp only [selectorOpen]; omega
      rw [readSelected, if_neg notOpen, if_pos low, List.getElem?_eq_none beyond]
    exact exec_readSession_ready ready selected
  · have selected : readSelected s0.ses sel.toNat = (.done, p.bytes) := by
      rw [hs, readSelected, if_pos (by decide), ho, hp]
    exact exec_readSession_ready ready selected
  · have selected : readSelected s0.ses sel.toNat = (.noRecord, []) := by
      rw [hs, readSelected, if_pos (by decide), ho]
    exact exec_readSession_ready ready selected
  · have selected : readSelected s0.ses sel.toNat = (.range, []) := by
      have notOpen : ¬ sel.toNat = selectorOpen := fun h => other (BitVec.eq_of_toNat_eq h)
      rw [readSelected, if_neg notOpen, if_neg (by omega)]
    exact exec_readSession_ready ready selected

end Sys2Proof.Proofs
end

section
/-! PROOF. The requests that act on the session and the demand: SET TARGET, OPEN SESSION, CLOSE SESSION, MEASURE NOW, CALIBRATE METER
and CLEAR FAULT (chapters 4, 9, 11 and 12). -/

namespace Sys2Proof.Proofs
open Sys2Proof.Machine

/-! ## A served request and the event's tail -/

/-- A ready request that its state serves, of its own length, is its block's work and then the event's tail (R171, R173, R75). -/
theorem event_served {t : Nat} {code tag : Byte} {params : List Byte} {serve : State → State} {s : State}
    (ready : RequestReady params (elapse t s)) (hs : served code (elapse t s).stc.op = true)
    (hl : params.length = paramLength code) :
    event t (takeRequest code tag params serve) s = finish false (elapse t s) (serve (closeTransaction (elapse t s))) := by
  rw [event, takeRequest_ready ready, handOver_served (s := closeTransaction _) hs hl]

@[simp] theorem answer_txn (r : TermRecord) (s : State) : (answer r s).vlk.txn = s.vlk.txn := rfl
@[simp] theorem answer_marks (r : TermRecord) (s : State) : (answer r s).vlk.marks = s.vlk.marks := rfl
@[simp] theorem answer_slot (r : TermRecord) (s : State) : (answer r s).vlk.slot = some r := rfl
@[simp] theorem closeTransaction_txn (s : State) : (closeTransaction s).vlk.txn = none := rfl
@[simp] theorem closeTransaction_marks (s : State) : (closeTransaction s).vlk.marks = s.vlk.marks := rfl

/-- Outside SESSION no zone is switched on and no idle timer starts (R74, R82). -/
theorem finish_outside {force : Bool} {before after : State} (h : after.stc.op ≠ .session) : finish force before after = after := by
  have out : inSession after = false := by simpa [inSession] using h
  have none : after.htr.candidate false after.dmu.heaterAllow after.cfg = none := by
    unfold Htr.candidate
    split <;> simp
  have test : after.htr.switchOn after.now false after.dmu.heaterAllow after.cfg = after.htr := by
    rw [Htr.switchOn, none]
  rw [finish, out, test, ite_self, Htr.startIdle]
  simp

/-! ## The demand figures passed on -/

/-- The passing on of the demand figures looks at nothing but the settings, the shares, the demand and the queue. -/
theorem demandSettled_congr {p q : Prop} [Decidable p] [Decidable q] {b b' t t' : State} (h : DemandSettled p b t) (again : q ↔ p)
    (shu : b'.shu = b.shu) (dli : b'.dli = b.dli) (cfg : b'.cfg = b.cfg) (shu' : t'.shu = t.shu) (dmu' : t'.dmu = t.dmu)
    (dli' : t'.dli = t.dli) (stc' : t'.stc = t.stc) (inputs : t'.grantInputs = t.grantInputs) : DemandSettled q b' t' := by
  obtain ⟨shares, split, queue⟩ := h
  simp only [DemandSettled, again, shu, dli, cfg, shu', dmu', dli', stc', inputs]
  exact ⟨shares, split, queue⟩

/-- The figures of the demand stand through the split and the grant before it. -/
theorem settleDemand_figures (before : Dmu) (s : State) :
    ∃ limit, (settleDemand before s).dmu = s.dmu.split s.cfg.tPermit limit := by
  unfold settleDemand
  split
  · exact ⟨_, rfl⟩
  · refine ⟨(regrant s).shu.limit, ?_⟩
    rw [(resplit_spec _).1, regrant_dmu, regrant_cfg]

theorem served_setTarget (op : OpState) : served codeSetTarget op = decide (op ≠ .start) := rfl

/-- Settles O36: the figures of `storeTarget` stand through the split (`split_kept`), and `settleDemand_settled` passes them on. -/
theorem setTargetAnswers : Obligations.SetTargetAnswers := by
  intro t tag params s s0 ready op len energy target delivered met charge
  have ok : served codeSetTarget s0.stc.op = true := by simpa [served_setTarget] using op
  let stored := storeTarget energy (fieldAt params 4 4) (closeTransaction s0)
  have settled : DemandSettled (FiguresMoved (closeTransaction s0) stored) (closeTransaction s0) (settleDemand s0.dmu stored) :=
    settleDemand_settled (b := closeTransaction s0) (s := stored) rfl rfl rfl
  obtain ⟨limit, figures⟩ := settleDemand_figures s0.dmu stored
  obtain ⟨own, weight, -, goal, departure, given, isMet, -, charger, -⟩ := split_kept stored.cfg.tPermit limit stored.dmu
  rw [← figures] at own weight goal departure given isMet charger
  have moved : FiguresMoved s0 (settleDemand s0.dmu stored) ↔ FiguresMoved (closeTransaction s0) stored := by
    rw [FiguresMoved, FiguresMoved, own, weight]
    rfl
  refine ⟨finish false s0 (serveSetTarget tag params (closeTransaction s0)), congrArg Host.Outcome.next (event_served ready ok len),
    goal, departure, given, isMet, charger, own, weight, rfl, demandSettled_congr settled moved rfl rfl rfl rfl rfl rfl rfl rfl, ?_⟩
  simp [serveSetTarget, storeTarget]

/-! ## MEASURE NOW and CALIBRATE METER -/

theorem served_calibrate {op : OpState} (h : op = .linked ∨ op = .session) : served codeCalibrate op = true := by
  rcases h with rfl | rfl <;> rfl

theorem startOwnEpoch_kept (s : State) : (startOwnEpoch s).htr = s.htr ∧ (startOwnEpoch s).dmu = s.dmu := ⟨rfl, rfl⟩

theorem serveMeasureNow_idle {tag : Byte} {s : State} (h : s.ins.epochState = .idle) : serveMeasureNow tag s =
    reply codeMeasureNow tag .done (word (startOwnEpoch s).ins.epochNumber ++ word (startOwnEpoch s).ins.tHalf) (startOwnEpoch s) :=
  if_pos h

theorem serveMeasureNow_busy {tag : Byte} {s : State} (h : s.ins.epochState ≠ .idle) :
    serveMeasureNow tag s = reply codeMeasureNow tag .notNow [] s := if_neg h

theorem serveMeasureNow_kept (tag : Byte) (s : State) :
    (serveMeasureNow tag s).htr = s.htr ∧ (serveMeasureNow tag s).dmu = s.dmu := by
  by_cases idle : s.ins.epochState = .idle
  · rw [serveMeasureNow_idle idle]
    exact startOwnEpoch_kept s
  · rw [serveMeasureNow_busy idle]
    exact ⟨rfl, rfl⟩

/-- Settles O39: neither request touches the heater, so each is its block's work alone. -/
theorem measureAndCalibrateTaken : Obligations.MeasureAndCalibrateTaken := by
  constructor
  · intro t tag s s0 ready op n half
    have ok : served codeMeasureNow s0.stc.op = true := by rw [served_measureNow, op]; rfl
    have run : exec (.measureNow t tag []) s = .next (serveMeasureNow tag (closeTransaction s0)) :=
      congrArg Host.Outcome.next (event_takeRequest_served ready ok rfl (fun q => (serveMeasureNow_kept tag q).1)
        (fun q => congrArg Dmu.heaterAllow (serveMeasureNow_kept tag q).2))
    refine ⟨fun idle => ?_, fun busy => ?_⟩
    · rw [run, serveMeasureNow_idle (s := closeTransaction s0) idle]
      rfl
    · rw [run, serveMeasureNow_busy (s := closeTransaction s0) busy]
      rfl
  · intro t tag s s0 ready op
    exact congrArg Host.Outcome.next (event_takeRequest_served (serve := serveCalibrate tag) ready (served_calibrate op) rfl
      (fun _ => rfl) (fun _ => rfl))

/-! ## CLEAR FAULT (R113, R167) -/

theorem served_clearFault (op : OpState) : served codeClearFault op = decide (op ≠ .start) := rfl

/-- The claimant marks after they have followed the claimant set (R4, R105). -/
theorem marksAgree_syncMarks (s : State) : MarksAgree (syncMarks s) := by
  intro e he
  obtain ⟨x, -, rfl⟩ := List.mem_map.1 he
  rfl

theorem sameEntries_syncMarks (s : State) : SameEntries (syncMarks s).ptb.entries s.ptb.entries := by
  simp [SameEntries, syncMarks, Function.comp_def]

theorem clear_latched {e : Epi} (h : e.state = .localFault ∨ e.state = .busFault ∨ e.state = .doubleFault) :
    e.clear = { e with state := .normal, claimants := [] } := by
  rcases h with h | h | h <;> rw [Epi.clear, h]

theorem clear_other {e : Epi} (loc : e.state ≠ .localFault) (bus : e.state ≠ .busFault) (double : e.state ≠ .doubleFault) :
    e.clear = e := by
  cases h : e.state <;> simp_all [Epi.clear]

/-- Cleared in HALTED, on the way to READY, the episode is NORMAL whatever it was (R113). -/
theorem clear_leaveBus (e : Epi) : e.clear.leaveBus = { e with state := .normal, claimants := [], window := none } := by
  cases h : e.state <;> simp [Epi.clear, Epi.leaveBus, h]

/-- What the entry to READY leaves of the table, the episode, the presence, the conversions and the queue (R17, R113, R124, R162). -/
theorem enterReady_spec (s : State) :
    (enterReady s).epi = s.epi.leaveBus ∧
      (enterReady s).ptb = { entries := [], unlisted := none, feeder := s.cfg.feederLimit, mismatch := false } ∧
      (enterReady s).mtr = s.mtr.enterReady ∧ (enterReady s).htr.cycleStart = none ∧
      ∀ k, k ≠ .announce → (enterReady s).dli.queue.get k = s.dli.queue.urgent.get k := by
  refine ⟨by simp [enterReady, leaveBus], by simp [enterReady, leaveBus, emptyTable], by simp [enterReady], ?_, fun k hk => ?_⟩
  · obtain ⟨_, _, _, _, cycle, _⟩ := resplit_spec
      (regrant (emptyTable (leaveBus { s with dli := s.dli.enterReady s.now, mtr := s.mtr.enterReady, htr := s.htr.stopCycle })))
    rw [enterReady, cycle, regrant_htr]
    rfl
  · rw [enterReady, resplit_dli, regrant_dli]
    split
    · rw [queueFrame_others _ _ _ _ _ hk]
      rfl
    · rfl

theorem serveClearFault_active {tag : Byte} {s : State} (op : s.stc.op = .halted) (input : s.shu.faultInput = true) :
    serveClearFault tag s = reply codeClearFault tag .stillActive [] s := by simp [serveClearFault, op, input]

theorem serveClearFault_halted {tag : Byte} {s : State} (op : s.stc.op = .halted) (input : s.shu.faultInput = false) :
    serveClearFault tag s = reply codeClearFault tag .done [] (enterReady (setOp .ready (clearedFaults s))) := by
  simp [serveClearFault, op, input]

theorem serveClearFault_running {tag : Byte} {s : State} (op : s.stc.op ≠ .halted) :
    serveClearFault tag s = reply codeClearFault tag .done [] (clearedFaults s) := if_neg op

/-- CLEAR FAULT in HALTED with the fault input low: the entry to READY, and the answer (R113, R162, R167). -/
theorem exec_clearFault_halted {t : Nat} {tag : Byte} {s : State} (ready : RequestReady [] (elapse t s))
    (op : (elapse t s).stc.op = .halted) (input : (elapse t s).shu.faultInput = false) :
    exec (.clearFault t tag []) s =
      .next (reply codeClearFault tag .done [] (enterReady (setOp .ready (clearedFaults (closeTransaction (elapse t s)))))) := by
  have run := event_served (tag := tag) (serve := serveClearFault tag) ready (by rw [served_clearFault, op]; rfl) rfl
  rw [serveClearFault_halted (s := closeTransaction _) op input, finish_outside (by simp [reply, setOp])] at run
  exact congrArg Host.Outcome.next run

/-- CLEAR FAULT in READY and on the line: the clearing and the answer (R113, R167). -/
theorem exec_clearFault_running {t : Nat} {tag : Byte} {s : State} (ready : RequestReady [] (elapse t s))
    (start : (elapse t s).stc.op ≠ .start) (op : (elapse t s).stc.op ≠ .halted) :
    exec (.clearFault t tag []) s = .next (reply codeClearFault tag .done [] (clearedFaults (closeTransaction (elapse t s)))) := by
  have run := event_served (tag := tag) (serve := serveClearFault tag) ready
    (by rw [served_clearFault]; exact decide_eq_true start) rfl
  rw [serveClearFault_running (s := closeTransaction _) op] at run
  exact congrArg Host.Outcome.next (run.trans (finish_quiet rfl rfl))

/-- Settles O40: STILL_ACTIVE; the exit from HALTED by `enterReady_spec` and `clear_leaveBus`; and elsewhere the clearing alone. -/
theorem clearFaultAnswers : Obligations.ClearFaultAnswers := by
  intro t tag s s0 ready start
  refine ⟨fun op input => ?_, fun taken => ?_⟩
  · have work : takeRequest codeClearFault tag [] (serveClearFault tag) s0 =
        reply codeClearFault tag .stillActive [] (closeTransaction s0) := by
      rw [takeRequest_ready ready, handOver_served (s := closeTransaction s0) (by rw [served_clearFault]; exact decide_eq_true start) rfl]
      exact serveClearFault_active op input
    exact congrArg Host.Outcome.next (event_link work)
  by_cases op : s0.stc.op = .halted
  · have input : s0.shu.faultInput = false := by simpa [op] using taken
    have run := exec_clearFault_halted (tag := tag) ready op input
    change _ = Host.Outcome.next (reply _ _ _ _ (enterReady (setOp _ (clearedFaults (closeTransaction s0))))) at run
    clear_value s0
    obtain ⟨epi, ptb, mtr, cycle, queue⟩ := enterReady_spec (setOp .ready (clearedFaults (closeTransaction s0)))
    have normal := epi.trans (clear_leaveBus s0.epi)
    have agree : MarksAgree (enterReady (setOp .ready (clearedFaults (closeTransaction s0)))) := by
      rw [MarksAgree, ptb]
      exact nofun
    refine ⟨_, run, ?_, ?_, (congrArg Epi.onset normal :), rfl,
      fun _ => ⟨congrArg Epi.state normal, congrArg Epi.claimants normal, congrArg Epi.window normal⟩,
      fun no => absurd op no, fun no => absurd op no, agree,
      fun _ => ⟨?_, congrArg Ptb.entries ptb, congrArg Mtr.presence mtr, congrArg Mtr.run mtr, cycle,
        queue .leave (by decide), queue .claim (by decide)⟩,
      fun no => absurd op no, ?_, ?_, ?_, ?_, ?_, (congrArg Mtr.lifetime mtr :), ?_, ?_⟩
    all_goals simp [reply, setOp, clearedFaults]
  · refine ⟨_, exec_clearFault_running ready start op, rfl, rfl, ?_, rfl, fun yes => absurd yes op, fun _ => clear_latched,
      fun _ => clear_other, marksAgree_syncMarks _, fun yes => absurd yes op,
      fun _ => ⟨rfl, rfl, rfl, rfl, rfl, rfl, sameEntries_syncMarks _⟩, rfl, rfl, rfl, rfl, rfl, rfl, rfl, rfl⟩
    show s0.epi.clear.onset = s0.epi.onset
    unfold Epi.clear
    split <;> rfl

/-! ## OPEN SESSION (R134, R135) -/

theorem hasRoom_iff (lifetime : Nat) (r : Ses) : r.hasRoom lifetime = true ↔
    r.log.length ≤ 15 ∧ r.nextNumber < 4294967295 ∧ lifetime ≤ 2 ^ 48 - 1 - 6 * 4294967295 := by
  rw [Ses.hasRoom, decide_eq_true_eq]
  exact and_congr_left' Nat.add_le_add_iff_right

theorem permits_eq_false_iff (e : Epi) :
    e.permits = false ↔ e.state = .claimWait ∨ e.state = .busFault ∨ e.state = .doubleFault := by
  cases h : e.state <;> simp [Epi.permits, h]

theorem serveOpenSession_full {tag : Byte} {s : State} (full : ¬ s.ses.hasRoom s.mtr.lifetime = true) :
    serveOpenSession tag s = reply codeOpenSession tag .logFull [] s := by simp [serveOpenSession, full]

theorem serveOpenSession_blocked {tag : Byte} {s : State} (room : s.ses.hasRoom s.mtr.lifetime = true)
    (blocked : s.epi.permits = false) : serveOpenSession tag s = reply codeOpenSession tag .insulation [] s := by
  simp [serveOpenSession, room, blocked]

theorem serveOpenSession_opens {tag : Byte} {s : State} (room : s.ses.hasRoom s.mtr.lifetime = true)
    (permits : s.epi.permits = true) :
    serveOpenSession tag s = reply codeOpenSession tag .done (word s.ses.nextNumber) (openedSession s) := by
  simp [serveOpenSession, room, permits]

/-- A new session has delivered nothing (R55). -/
theorem deliveredOf_newRecord (number station depot clock lifetime : Nat) :
    deliveredOf (some (newRecord number station depot clock lifetime)) = 0 := by
  simp [deliveredOf, newRecord]

/-- A zone whose heating time is 0 keeps it at 0. -/
theorem heatTime_zero {limit : Nat} {p q : Quad Zone} (h : ZonesKept limit p q) (zero : ∀ z, (p.get z).heatTime = 0) (z : ZoneId) :
    (q.get z).heatTime = 0 := by
  obtain ⟨-, time, -⟩ := h z
  have := zero z
  unfold HeatTimeKept at time
  omega

theorem openedSession_mtr (s : State) : (openedSession s).mtr = s.mtr.openSession s.now (currentBand s) := by
  rw [openedSession_eq, resplit_mtr, regrant_mtr]
  rfl

theorem openedSession_marks (s : State) :
    (openedSession s).vlk = { s.vlk with marks := { s.vlk.marks with stateChanged := true } } := by
  rw [openedSession_eq, resplit_vlk, regrant_vlk]
  rfl

theorem openedSession_dmu (s : State) : ∃ limit, (openedSession s).dmu = (opening s).dmu.split s.cfg.tPermit limit := by
  refine ⟨(regrant (opening s)).shu.limit, ?_⟩
  rw [openedSession_eq, (resplit_spec _).1, regrant_dmu, regrant_cfg]
  rfl

/-- The demand figures of a session just opened: nothing delivered, and the zones' demands as they stood (R54 to R62). -/
theorem openedSession_figures (s : State) :
    let d := (openedSession s).dmu
    let met := targetMetOf s.dmu.target 0
    let charge := chargerDemandOf s.cfg s.dmu.target met (bandOf (tMinOf s.htr.zones))
    let heat := ratedSum Zone.asks s.htr.zones s.cfg.ratings
    d.delivered = 0 ∧ d.targetMet = met ∧ d.chargerDemand = charge ∧ d.heaterDemand = heat ∧
      d.ownDemand = min s.cfg.ist (charge + heat) ∧
      d.weight = weightOf s.cfg.irating s.dmu.target 0 met s.dmu.departure (clock s) (weightVoltage s.cfg s.mtr.latest) := by
  obtain ⟨limit, figures⟩ := openedSession_dmu s
  obtain ⟨own, weight, -, -, -, given, isMet, -, charger, heater⟩ := split_kept s.cfg.tPermit limit (opening s).dmu
  rw [← figures] at own weight given isMet charger heater
  have none : (opening s).dmu.delivered = 0 := deliveredOf_newRecord _ _ _ _ _
  have met : (opening s).dmu.targetMet = targetMetOf s.dmu.target 0 := by rw [← none]; rfl
  have charge : (opening s).dmu.chargerDemand =
      chargerDemandOf s.cfg s.dmu.target (targetMetOf s.dmu.target 0) (bandOf (tMinOf s.htr.zones)) := by rw [← met]; rfl
  have figure : (opening s).dmu.weight = weightOf s.cfg.irating s.dmu.target 0 (targetMetOf s.dmu.target 0) s.dmu.departure
      (clock s) (weightVoltage s.cfg s.mtr.latest) := by
    rw [← met, ← none]
    rfl
  refine ⟨given.trans none, isMet.trans met, charger.trans charge, heater, own.trans ?_, weight.trans figure⟩
  rw [← charge]
  rfl

theorem openedSession_heatTime (s : State) (z : ZoneId) : ((openedSession s).htr.zones.get z).heatTime = 0 := by
  rw [openedSession_eq]
  refine heatTime_zero (resplit_spec (regrant (opening s))).2.2.1 (fun w => ?_) z
  rw [regrant_htr]
  exact congrArg Zone.heatTime (Quad.get_map _ s.htr.zones w)

theorem grantTaken_peak (u : Shu) : (grantTaken u).peak = u.peak ∧ (grantTaken u).enable = u.enable := by
  unfold grantTaken
  simp only []
  repeat' split
  all_goals exact ⟨rfl, rfl⟩

/-- The epoch timer at the opening: expired where the bus record is absent or old, full otherwise (R86). -/
theorem enterSession_timer (now clock : Nat) (cfg : Settings) (i : Ins) :
    let old := ∀ b, i.busRecord = some b → b.time + 2 * cfg.epochInterval < clock
    (old → (i.enterSession now clock cfg).epochTimer = some now) ∧
      (¬ old → (i.enterSession now clock cfg).epochTimer =
        some (now + (cfg.epochInterval * 1000 + cfg.stationCode * 100) * 1000)) := by
  intro old
  cases record : i.busRecord with
  | none =>
    have isOld : old := fun b hb => by simp [record] at hb
    exact ⟨fun _ => by simp [Ins.enterSession, record], fun no => absurd isOld no⟩
  | some b =>
    have old_iff : old ↔ 2 * cfg.epochInterval < clock - b.time := by
      simp only [old, record, Option.some.injEq, forall_eq']
      omega
    rw [old_iff]
    exact ⟨fun h => by simp [Ins.enterSession, record, h], fun h => by simp [Ins.enterSession, record, h, epochDuration]⟩

/-- Settles O37: the two refusals, and the opening by what `openedSession` does to each block and by `resplit_regrant_settled`. -/
theorem openSessionAnswers : Obligations.OpenSessionAnswers := by
  intro t tag s s0 ready op room blocked opened refusedWith
  have ok : served codeOpenSession s0.stc.op = true := by rw [served_openSession, op]; rfl
  have work : takeRequest codeOpenSession tag [] (serveOpenSession tag) s0 = serveOpenSession tag (closeTransaction s0) := by
    rw [takeRequest_ready ready, handOver_served (s := closeTransaction s0) ok rfl]
  refine ⟨fun full => congrArg Host.Outcome.next (event_link ?_), fun free blocks => congrArg Host.Outcome.next (event_link ?_),
    fun free permits => ?_⟩
  · exact work.trans (serveOpenSession_full (mt (hasRoom_iff _ _).1 full))
  · exact work.trans (serveOpenSession_blocked ((hasRoom_iff _ _).2 free) ((permits_eq_false_iff _).2 blocks))
  have permitted : s0.epi.permits = true := by
    rw [← Bool.not_eq_false, permits_eq_false_iff]
    exact permits
  have run : exec (.openSession t tag []) s = .next (finish false s0 (reply codeOpenSession tag .done (word s0.ses.nextNumber)
      (openedSession (closeTransaction s0)))) := by
    have opens := event_served (tag := tag) (serve := serveOpenSession tag) ready ok rfl
    rw [serveOpenSession_opens (s := closeTransaction _) ((hasRoom_iff _ _).2 free) permitted] at opens
    exact congrArg Host.Outcome.next opens
  clear_value s0
  have settled := resplit_regrant_settled (opening (closeTransaction s0))
  rw [← openedSession_eq] at settled
  obtain ⟨shares, -, -⟩ := id settled
  obtain ⟨given, isMet, charger, heater, own, weight⟩ := openedSession_figures (closeTransaction s0)
  have stc := openedSession_stc (closeTransaction s0)
  have ses := openedSession_ses (closeTransaction s0)
  have mtr := openedSession_mtr (closeTransaction s0)
  have ins := openedSession_ins (closeTransaction s0)
  have marks := openedSession_marks (closeTransaction s0)
  have timer := enterSession_timer s0.now (clock s0) s0.cfg s0.ins
  refine ⟨_, run, (congrArg Stc.op stc :), (congrArg Stc.contactor stc :), (congrArg Ses.nextNumber ses :),
    (congrArg Ses.log ses :), (congrArg Ses.openRecord ses :), (congrArg Ses.snapshot ses :),
    (congrArg (fun m => m.interval.band) mtr :), (congrArg (fun m => m.interval.number) mtr :),
    (congrArg (fun m => m.interval.count) mtr :), (congrArg Mtr.cal mtr :), (congrArg Mtr.heldHeat mtr :),
    (congrArg Mtr.heldCharge mtr :), (congrArg Mtr.periodEnd mtr :), ?_, ?_, ?_, ?_, given, isMet, ?_, heater, ?_, ?_,
    demandSettled_congr settled Iff.rfl (opening_kept (closeTransaction s0)).1.symm ?_ ?_ rfl rfl rfl rfl rfl, (congrArg (fun v => v.marks.stateChanged) marks :), rfl,
    ?_, ?_, ?_, ?_, ?_, ?_, (congrArg Mtr.lifetime mtr :), (congrArg Mtr.offset mtr :), ?_, ?_⟩
  · refine heatTime_zero (finish_kept false s0 _).1 (fun z => ?_)
    exact openedSession_heatTime (closeTransaction s0) z
  · rw [finish_ins, reply, answer_ins, ins]
    exact timer
  · rw [finish_shu, reply, answer_shu, shares, if_pos trivial]
    exact (grantTaken_peak _).2
  · rw [finish_shu, reply, answer_shu, shares, if_pos trivial]
    exact (grantTaken_peak _).1
  · exact charger.trans (by rw [← isMet]; rfl)
  · exact own.trans (by rw [← charger, ← heater]; rfl)
  · exact weight.trans (by rw [← isMet]; rfl)
  all_goals simp [reply, openedSession_eq, opening]

end Sys2Proof.Proofs
end

section
/-! PROOF. The close of a session and the resets: CLOSE SESSION (R127, R138, R160, R161), SOFT RESET (R169) and the power-on reset
(R139, R168, R179). -/

namespace Sys2Proof.Proofs
open Sys2Proof.Machine

/-! ## The record closed (R127, R138, R143) -/

theorem exportBytes_length (r : OpenRecord) (closeTime closing reason fault : Nat) (unrecorded : Bool) :
    (exportBytes r closeTime closing reason fault unrecorded).length = 61 := by
  unfold exportBytes
  repeat rw [List.length_append]
  repeat rw [beBytes_length]

/-- A closed record's check value is that of its other bytes (R143). -/
theorem closeRecord_check (r : OpenRecord) (closeTime closing : Nat) (reason : CloseReason) (fault : Option FaultCode)
    (unrecorded : Bool) : let c := closeRecord r closeTime closing reason fault unrecorded
    c.check = crc16 (c.bytes.take 61) := by
  intro c
  have body : c.bytes.take 61 = exportBytes r closeTime closing reason.number (faultByte fault) unrecorded :=
    List.take_left' (exportBytes_length _ _ _ _ _ _)
  rw [body]
  simp only [c, closeRecord]

/-- The open record as its close finds it: the interval in progress credited where it holds a sample (R127). -/
def closingRecord (i : Interval) (o : OpenRecord) : OpenRecord := if i.count = 0 then o else o.credit i

theorem closingRecord_number (i : Interval) (o : OpenRecord) : (closingRecord i o).number = o.number := by
  unfold closingRecord
  split <;> rfl

theorem partialInterval_record {s : State} {o : OpenRecord} (h : s.ses.openRecord = some o) :
    (partialInterval s).ses = { s.ses with openRecord := some (closingRecord s.mtr.interval o) } ∧
      (partialInterval s).mtr.lifetime = s.mtr.lifetime +
        (if s.mtr.interval.count = 0 then 0 else creditTotal s.mtr.interval (some o)) := by
  unfold partialInterval closingRecord
  by_cases empty : s.mtr.interval.count = 0
  · rw [if_pos empty, if_pos empty, if_pos empty, ← h]
    exact ⟨rfl, rfl⟩
  · rw [if_neg empty, if_neg empty, if_neg empty, creditInterval, h]
    exact ⟨rfl, rfl⟩

/-- The close appends the record, as of now, and nothing of the session is left (R138). -/
theorem closeSession_record {s : State} {o : OpenRecord} (reason : CloseReason) (code : Option FaultCode)
    (h : s.ses.openRecord = some o) : (closeSession reason code s).ses = { s.ses with
      openRecord := none
      snapshot := none
      log := s.ses.log ++ [closeRecord { closingRecord s.mtr.interval o with peak := s.shu.peak } (clock s)
        (closeSession reason code s).mtr.lifetime reason code false] } := by
  rw [closeSession_lifetime, closeSession_ses, (partialInterval_record h).1]
  rfl

theorem closeSession_mtr (reason : CloseReason) (code : Option FaultCode) (s : State) :
    (closeSession reason code s).mtr = { (partialInterval s).mtr with interval := Interval.none, cal := .idle } := by
  have abandoned (x : State) : (abandonSlot x).mtr = { x.mtr with cal := .idle } := by
    unfold abandonSlot
    split
    · next idle => rw [← idle]
    · simp
  exact abandoned _

theorem partialInterval_mtr (s : State) : (partialInterval s).mtr.offset = s.mtr.offset := by
  unfold partialInterval
  split <;> rfl

/-! ## The credit (R126, R128, R132) -/

theorem add_same (band : Band) (heat charge : Nat) (c : Counters) :
    (c.add band heat charge).heating band = c.heating band + heat ∧ (c.add band heat charge).charging band = c.charging band + charge := by
  cases band <;> exact ⟨rfl, rfl⟩

theorem add_other {band b : Band} (h : b ≠ band) (heat charge : Nat) (c : Counters) :
    (c.add band heat charge).heating b = c.heating b ∧ (c.add band heat charge).charging b = c.charging b := by
  cases band <;> cases b <;> simp [Counters.add, Counters.heating, Counters.charging] at h ⊢

theorem creditOf_eq (i : Interval) (o : OpenRecord) : creditOf i o =
    (min (i.heatAcc / 14400) (4294967295 - o.counters.heating i.band),
      min (i.chargeAcc / 14400) (4294967295 - o.counters.charging i.band)) := rfl

theorem creditReduced_iff (i : Interval) (o : OpenRecord) : creditReduced i o = true ↔
    (creditOf i o).1 < i.heatAcc / 14400 ∨ (creditOf i o).2 < i.chargeAcc / 14400 := by
  rw [creditReduced, decide_eq_true_eq, Ne, Prod.ext_iff, creditOf_eq]
  show ¬(_ = i.heatAcc / 14400 ∧ _ = i.chargeAcc / 14400) ↔ _
  omega

/-- What crediting an interval does to a record, figure by figure (R126 step 2, R132). -/
theorem credit_figures (i : Interval) (o : OpenRecord) :
    let heat := min (i.heatAcc / 14400) (4294967295 - o.counters.heating i.band)
    let charge := min (i.chargeAcc / 14400) (4294967295 - o.counters.charging i.band)
    let reduced := heat < i.heatAcc / 14400 ∨ charge < i.chargeAcc / 14400
    let r := o.credit i
    r.counters.heating i.band = o.counters.heating i.band + heat ∧
      r.counters.charging i.band = o.counters.charging i.band + charge ∧
      (∀ b, b ≠ i.band → r.counters.heating b = o.counters.heating b ∧ r.counters.charging b = o.counters.charging b) ∧
      r.intervalCount = min (o.intervalCount + 1) 65535 ∧
      (i.estimated = true ∨ reduced → r.estimatedCount = min (o.estimatedCount + 1) 65535) ∧
      (i.estimated = false → ¬ reduced → r.estimatedCount = o.estimatedCount) ∧
      r.reverseCount = (if i.reverse then min (o.reverseCount + 1) 65535 else o.reverseCount) ∧
      r.station = o.station ∧ r.depot = o.depot ∧ r.openTime = o.openTime ∧ r.opening = o.opening := by
  intro heat charge reduced r
  obtain ⟨heats, charges⟩ := add_same i.band heat charge o.counters
  have isReduced : creditReduced i o = true ↔ reduced := creditReduced_iff i o
  refine ⟨heats, charges, fun b hb => add_other hb heat charge o.counters, rfl, fun marked => ?_, fun exact_ full => ?_, rfl, rfl, rfl,
    rfl, rfl⟩
  · exact if_pos (by simpa [isReduced] using marked)
  · exact if_neg (by simpa [isReduced, exact_] using full)

/-! ## The departure (R83, R161) -/

theorem depart_htr_off (reason : CloseReason) (code : Option FaultCode) (dest : OpState) (s : State) :
    (depart reason code dest s).htr.contactor = false ∧ (depart reason code dest s).htr.zones.anyHeating = false := by
  have left : (regrant (departing reason code dest s)).htr = s.htr.leaveSession s.cfg.doseLimit := by simp [departing]
  have htr : (depart reason code dest s).htr = (resplit (regrant (departing reason code dest s))).htr := rfl
  refine ⟨?_, ?_⟩
  · rw [htr]
    show (regrant (departing reason code dest s)).htr.contactor = false
    rw [left]
    rfl
  · rw [htr]
    refine anyHeating_of_off fun z => ?_
    by_contra on
    have was := shedZones_heats _ _ _ _ _ z (Bool.not_eq_false _ ▸ on)
    rw [left, leaveSession_off] at was
    exact absurd was (by decide)

theorem depart_kept (reason : CloseReason) (code : Option FaultCode) (dest : OpState) (s : State) :
    let t := depart reason code dest s
    t.cfg = s.cfg ∧ t.ptb = s.ptb ∧ t.epi = s.epi ∧ t.trc = s.trc ∧ t.flt = s.flt ∧ t.trm = s.trm ∧ t.now = s.now ∧
      t.pending = s.pending := by
  simp

/-- Settles O38: the departure by `depart_spec`, its record by `closeSession_record` and the credit by `credit_figures`. -/
theorem closeSessionAnswers : Obligations.CloseSessionAnswers := by
  intro t tag o s s0 ready op record i heat charge reduced
  have ok : served codeCloseSession s0.stc.op = true := by rw [served_closeSession, op]; rfl
  have run : exec (.closeSession t tag []) s = .next (reply codeCloseSession tag .done (word o.number)
      (depart .request none .linked (closeTransaction s0))) := by
    have closes := event_served (tag := tag) (serve := serveCloseSession tag) ready ok rfl
    have number : openNumber (closeTransaction (elapse t s)).ses = o.number := by
      rw [closeTransaction_ses, openNumber]
      rw [show (elapse t s).ses.openRecord = some o from record]
    rw [serveCloseSession, number, finish_outside (by rw [reply, answer_stc, (depart_spec _ _ _ _ (by decide)).1]; exact nofun)] at closes
    exact congrArg Host.Outcome.next closes
  clear_value s0
  obtain ⟨stc, ins, ses, mtr, limit, intent, setpoint, enable, charger, heater, vlk, epoch, -⟩ :=
    depart_spec .request none .linked (closeTransaction s0) (by decide)
  obtain ⟨cfg, ptb, epi, trc, flt, trm, now, pending⟩ := depart_kept .request none .linked (closeTransaction s0)
  obtain ⟨contactor, heating⟩ := depart_htr_off .request none .linked (closeTransaction s0)
  have recordNow : (closeTransaction s0).ses.openRecord = some o := record
  rw [closeSession_record .request none recordNow] at ses
  have lifetime : (depart .request none .linked (closeTransaction s0)).mtr.lifetime =
      s0.mtr.lifetime + (if i.count = 0 then 0 else creditTotal i (some o)) := by
    rw [mtr, closeSession_lifetime]
    exact (partialInterval_record recordNow).2
  have marks := congrArg Vlk.marks vlk
  rw [closeSession_fault] at marks
  refine ⟨_, closeRecord { closingRecord i o with peak := s0.shu.peak } (clock s0)
    (depart .request none .linked (closeTransaction s0)).mtr.lifetime .request none false, run, fun empty => ⟨?_, ?_⟩,
    fun held => ⟨?_, ?_⟩, (congrArg Stc.op stc :), (congrArg Stc.contactor stc :),
    (congrArg Ses.openRecord ses :), (congrArg Ses.snapshot ses :), ?_, rfl, rfl, rfl, rfl, rfl, ?_, rfl,
    closeRecord_check _ _ _ _ _ _, ?_, ?_, (congrArg Ins.epochState ins :), (congrArg Ins.source ins :),
    (congrArg Ins.epochTimer ins :), epoch, contactor, heating, limit, intent, setpoint, enable, charger, heater,
    (congrArg Marks.sessionClosed marks :), (congrArg Marks.stateChanged marks :), rfl, cfg, ptb, epi, trc, flt, trm, ?_,
    (congrArg Ins.busRecord ins :), (congrArg Ins.branchRecord ins :), (congrArg Ins.lastEpoch ins :), now, pending⟩
  · simp only [closeRecord, closingRecord, empty, if_true]
  · exact lifetime.trans (by rw [if_pos empty, Nat.add_zero])
  · exact lifetime.trans (by rw [if_neg held]; exact (Nat.add_assoc _ _ _).symm)
  · have figures := credit_figures i o
    rw [← (if_neg held : closingRecord i o = o.credit i)] at figures
    exact figures
  · rw [reply, answer_ses, ses, mtr]
    rfl
  · exact closingRecord_number i o
  · rw [reply, answer_mtr, mtr, closeSession_mtr]
  · rw [reply, answer_mtr, mtr, closeSession_mtr]
  · rw [reply, answer_mtr, mtr, closeSession_mtr]
    exact partialInterval_mtr _

/-! ## SOFT RESET (R169) -/

theorem abandonSlot_txn (s : State) : (abandonSlot s).vlk.txn = s.vlk.txn := by
  unfold abandonSlot endCalibrate
  repeat' split
  all_goals rfl

theorem closeSession_txn (reason : CloseReason) (code : Option FaultCode) (s : State) :
    (closeSession reason code s).vlk.txn = s.vlk.txn := by
  show (abandonSlot _).vlk.txn = _
  rw [abandonSlot_txn, post]
  show (partialInterval s).vlk.txn = _
  rw [partialInterval_vlk]

theorem grantTaken_faultInput (u : Shu) : (grantTaken u).faultInput = u.faultInput := by
  unfold grantTaken
  simp only []
  repeat' split
  all_goals rfl

theorem depart_faultInput (reason : CloseReason) (code : Option FaultCode) (dest : OpState) (s : State) :
    (depart reason code dest s).shu.faultInput = s.shu.faultInput := by
  show (regrant (departing reason code dest s)).shu.faultInput = _
  rw [regrant_shu, applyGrant_eq, grantTaken_faultInput]
  exact (congrArg Shu.faultInput (departing_kept reason code dest s).1 :)

/-- A SOFT RESET's first step: an open session is closed and left (R169). -/
def softResetLeft (s : State) : State := if s.stc.op = .session then depart .reset none .start s else s

theorem softResetLeft_kept (s : State) : let l := softResetLeft s
    l.shu.faultInput = s.shu.faultInput ∧ l.mtr.offset = s.mtr.offset ∧ s.mtr.lifetime ≤ l.mtr.lifetime ∧ l.trc = s.trc ∧
      l.flt = s.flt ∧ l.trm = s.trm ∧ l.ses.nextNumber = s.ses.nextNumber ∧ l.vlk.txn = s.vlk.txn ∧ l.now = s.now ∧
      l.pending = s.pending := by
  intro l
  simp only [l, softResetLeft]
  split
  · obtain ⟨-, -, ses, mtr, -, -, -, -, -, -, vlk, -, -⟩ := depart_spec .reset none .start s (by decide)
    refine ⟨depart_faultInput _ _ _ _, ?_, ?_, by simp, by simp, by simp, ?_, ?_, by simp, by simp⟩
    · rw [mtr, closeSession_mtr]
      exact partialInterval_mtr s
    · rw [mtr, closeSession_lifetime]
      exact partialInterval_lifetime s
    · rw [ses, closeSession_ses, close_nextNumber, partialInterval_nextNumber]
    · rw [vlk]
      exact closeSession_txn _ _ _
  · exact ⟨rfl, rfl, le_rfl, rfl, rfl, rfl, rfl, rfl, rfl, rfl⟩

theorem serveSoftReset_eq (s : State) : serveSoftReset s =
    { resetBlocks (softResetLeft s) with vlk := { (softResetLeft s).vlk with
        inProgress := none, slot := none, marks := Marks.afterReset (decide (s.stc.op = .session)) } } := by
  rw [serveSoftReset, softResetLeft]
  by_cases session : s.stc.op = .session
  · simp only [session, decide_true, if_true]
    rfl
  · simp only [session, decide_false, Bool.false_eq_true, if_false]
    rfl

/-- Settles O41: the departure with its close where a session is open (`softResetLeft_kept`), and then the reset values. -/
theorem softResetTaken : Obligations.SoftResetTaken := by
  intro t tag x s s0 txn whole empty
  have run : exec (.softReset t tag []) s = .next (serveSoftReset (closeTransaction s0)) := by
    have taken : discarded codeSoftReset x [] s0.vlk.slot = false := by simp [discarded, empty, whole]
    have work : takeRequest codeSoftReset tag [] serveSoftReset s0 = serveSoftReset (closeTransaction s0) := by
      rw [takeRequest, txn]
      simp only [taken, Bool.false_eq_true, if_false]
      exact handOver_served rfl rfl
    have start : (serveSoftReset (closeTransaction s0)).stc.op ≠ .session := by
      rw [serveSoftReset_eq]
      exact nofun
    refine congrArg Host.Outcome.next ?_
    rw [event, work, finish_outside start]
  clear_value s0
  obtain ⟨input, offset, lifetime, trc, flt, trm, number, txnLeft, now, pending⟩ := softResetLeft_kept (closeTransaction s0)
  refine ⟨_, run, ?_⟩
  rw [serveSoftReset_eq]
  refine ⟨rfl, rfl, rfl, rfl, rfl, rfl, rfl, (congrArg (fun b => ({ Shu.reset with faultInput := b } : Shu)) input :), rfl, rfl, rfl,
    rfl, rfl, rfl, rfl, (congrArg (fun n => ({ Mtr.reset with
      offset := n, lifetime := (softResetLeft (closeTransaction s0)).mtr.lifetime } : Mtr)) offset :),
    lifetime, trc, flt, trm, number, ?_, ?_, rfl, rfl, txnLeft, rfl, now, pending⟩
  · intro out
    have same : softResetLeft (closeTransaction s0) = closeTransaction s0 := if_neg out
    rw [same]
    exact ⟨rfl, rfl⟩
  · intro o session record
    have left : softResetLeft (closeTransaction s0) = depart .reset none .start (closeTransaction s0) := if_pos session
    obtain ⟨-, -, ses, mtr, -⟩ := depart_spec .reset none .start (closeTransaction s0) (by decide)
    rw [closeSession_record (s := closeTransaction s0) .reset none record] at ses
    rw [← mtr, ← left] at ses
    rw [← left] at mtr
    exact ⟨_, (congrArg Ses.log ses :), rfl, closingRecord_number _ o, rfl, (congrArg Ses.openRecord ses :),
      (congrArg Ses.snapshot ses :)⟩

/-! ## The power-on reset (R139, R168, R179) -/

theorem exec_powerOn (t : Nat) (s : State) : exec (.powerOnReset t) s = .next (powerOn (elapse t s)) :=
  congrArg Host.Outcome.next (finish_outside (before := elapse t s) (after := powerOn (elapse t s)) nofun)

/-- A snapshot found is closed with reason POWER_LOSS at its own time (R139). -/
theorem closeSnapshot_found {lifetime : Nat} {r : Ses} {p : Snapshot} (h : r.snapshot = some p) :
    r.closeSnapshot lifetime =
      { r with log := r.log ++ [closeRecord p.record p.time lifetime .powerLoss none true], snapshot := none } := by
  simp [Ses.closeSnapshot, h]

theorem closeSnapshot_none {lifetime : Nat} {r : Ses} (h : r.snapshot = none) : r.closeSnapshot lifetime = r := by
  simp [Ses.closeSnapshot, h]

theorem closeSnapshot_snapshot (lifetime : Nat) (r : Ses) : (r.closeSnapshot lifetime).snapshot = none := by
  cases h : r.snapshot with
  | none => rw [closeSnapshot_none h, h]
  | some p => rw [closeSnapshot_found h]

/-- The trim read is valid exactly where its check value agrees and every constant lies in its range (R179). -/
theorem read_valid_iff (m : Trm) : m.read.valid = true ↔ m.crcAgrees = true ∧ m.stored.inRange = true := by
  unfold Trm.read
  split
  · next ok => simpa using ok
  · next bad => simpa using bad

theorem read_stored (m : Trm) : m.read.stored = m.stored ∧ m.read.storedCrc = m.storedCrc := by
  unfold Trm.read
  split <;> exact ⟨rfl, rfl⟩

theorem read_inUse (m : Trm) :
    (m.read.valid = true → m.read.inUse = m.stored) ∧ (m.read.valid = false → m.read.inUse = TrimConstants.nominal) := by
  unfold Trm.read
  split
  · exact ⟨fun _ => rfl, nofun⟩
  · exact ⟨nofun, fun _ => rfl⟩

theorem inRange_iff (c : TrimConstants) : c.inRange = true ↔
    35000 ≤ c.ui ∧ c.ui ≤ 45000 ∧ 180000 ≤ c.rc ∧ c.rc ≤ 220000 ∧ (9000 ≤ c.branchGain ∧ c.branchGain ≤ 11000) ∧
      (9000 ≤ c.totalGain ∧ c.totalGain ≤ 11000) ∧ 9000 ≤ c.heaterGain ∧ c.heaterGain ≤ 11000 := by
  simp only [TrimConstants.inRange, decide_eq_true_eq, and_assoc]

/-- Settles O42: the blocks at their reset values, the snapshot closed (`closeSnapshot_found`) and the trim read. -/
theorem powerOnReset : Obligations.PowerOnReset := by
  intro t s s0
  have run : exec (.powerOnReset t) s = .next (powerOn s0) := exec_powerOn t s
  clear_value s0
  obtain ⟨stored, storedCrc⟩ := read_stored s0.trm
  obtain ⟨valid, nominal⟩ := read_inUse s0.trm
  refine ⟨_, run, rfl, rfl, rfl, rfl, rfl, rfl, rfl, rfl, rfl, rfl, rfl, rfl, rfl, rfl, rfl, rfl, rfl, rfl,
    closeSnapshot_nextNumber _ _, rfl, closeSnapshot_snapshot _ _, fun none => ?_, fun p found => ?_,
    ⟨stored, storedCrc, ?_, valid, nominal⟩, rfl, rfl, rfl, rfl, rfl⟩
  · exact (congrArg Ses.log (closeSnapshot_none (lifetime := s0.mtr.lifetime) none) :)
  · have closed := closeSnapshot_found (lifetime := s0.mtr.lifetime) found
    exact ⟨_, (congrArg Ses.log closed :), rfl, rfl, rfl, rfl, rfl, rfl, closeRecord_check _ _ _ _ _ _⟩
  · refine (read_valid_iff s0.trm).trans (and_congr ?_ (inRange_iff _))
    rw [Trm.crcAgrees, decide_eq_true_eq]

end Sys2Proof.Proofs
end

section
/-! PROOF. CONFIGURE: the configuration block settled field by field (R177, R178) and the entry to READY (R158). -/

namespace Sys2Proof.Proofs
open Sys2Proof.Machine

/-! ## The clamp mask (R172) -/

/-- The bit of a field in ascending order says whether the field was clamped. -/
theorem maskOf_at {bits : List (Nat × Bool)} (asc : (bits.map Prod.fst).Pairwise (· < ·)) {k n : Nat} {b : Bool}
    (h : bits[k]? = some (n, b)) : (maskOf bits).testBit n = b := by
  have mem : (n, b) ∈ bits := List.mem_of_getElem? h
  have unique (y : Nat × Bool) (hy : y ∈ bits) (hn : y.1 = n) : y = (n, b) :=
    List.inj_on_of_nodup_map (asc.imp (fun h => Nat.ne_of_lt h)) hy mem hn
  rw [(maskOf_testBit bits asc n).1]
  cases b with
  | true => exact List.any_eq_true.2 ⟨_, mem, by simp⟩
  | false =>
    rw [List.any_eq_false]
    rintro y hy on
    obtain ⟨hn, hb⟩ : y.1 = n ∧ y.2 = true := by simpa using on
    rw [unique y hy hn] at hb
    cases hb

theorem maskOf_other {bits : List (Nat × Bool)} (asc : (bits.map Prod.fst).Pairwise (· < ·)) {n : Nat}
    (h : n ∉ bits.map Prod.fst) : (maskOf bits).testBit n = false := by
  rw [(maskOf_testBit bits asc n).1, List.any_eq_false]
  rintro y hy on
  obtain ⟨hn, -⟩ : y.1 = n ∧ y.2 = true := by simpa using on
  exact h (hn ▸ List.mem_map_of_mem hy)

/-- The fields of the block that have a bit in the clamp mask, in their order (R178, R182). -/
def clampNumbers : List Nat := [2, 3, 4, 5, 6, 7, 8, 9, 11, 12, 14, 15, 16, 17, 18, 19, 20, 21, 22, 23]

/-- The bit of the field that stands at a place of the mask's list. -/
theorem clampMask_at (bs : List Byte) {bits : List (Nat × Bool)} (mask : (configOf bs).clampMask = maskOf bits)
    (numbers : bits.map Prod.fst = clampNumbers) {k n : Nat} {b : Bool} (h : bits[k]? = some (n, b)) :
    (configOf bs).clampMask.testBit n = b := by
  rw [mask]
  exact maskOf_at (by rw [numbers]; decide) h

/-- A number without a bit in the mask. -/
theorem clampMask_other (bs : List Byte) {bits : List (Nat × Bool)} (mask : (configOf bs).clampMask = maskOf bits)
    (numbers : bits.map Prod.fst = clampNumbers) {n : Nat} (h : n ∉ clampNumbers) : (configOf bs).clampMask.testBit n = false := by
  rw [mask]
  exact maskOf_other (by rw [numbers]; decide) (by rwa [numbers])

/-! ## One field (R178) -/

theorem settleNat_field {clamp n dflt lo hi raw v : Nat} {u : Bool} (bit : clamp.testBit n = (settleNat u dflt lo hi raw).2)
    (taken : (if u then dflt else raw) = v) : (settleNat u dflt lo hi raw).1 = max lo (min v hi) ∧
      (clamp.testBit n = true ↔ v < lo ∨ hi < v) := by
  subst taken
  exact ⟨rfl, by rw [bit]; exact decide_eq_true_iff⟩

theorem settleInt_field {clamp n : Nat} {dflt lo hi raw v : Int} {u : Bool} (bit : clamp.testBit n = (settleInt u dflt lo hi raw).2)
    (taken : (if u then dflt else raw) = v) : (settleInt u dflt lo hi raw).1 = max lo (min v hi) ∧
      (clamp.testBit n = true ↔ v < lo ∨ hi < v) := by
  subst taken
  exact ⟨rfl, by rw [bit]; exact decide_eq_true_iff⟩

theorem plain_settled (bs : List Byte) : ∀ x ∈ plainFields,
    let v := fieldTaken (fieldAt bs 0 4) x.number x.dflt (fieldAt bs x.offset 2)
    x.setting (configOf bs).settings = max x.least (min v x.most) ∧
      ((configOf bs).clampMask.testBit x.number = true ↔ v < x.least ∨ x.most < v) := by
  intro x hx
  simp only [plainFields, List.mem_cons, List.not_mem_nil, or_false] at hx
  rcases hx with rfl | rfl | rfl | rfl | rfl | rfl | rfl | rfl | rfl | rfl | rfl | rfl
  · exact settleNat_field (clampMask_at bs rfl rfl (k := 0) rfl) rfl
  · exact settleNat_field (clampMask_at bs rfl rfl (k := 1) rfl) rfl
  · exact settleNat_field (clampMask_at bs rfl rfl (k := 2) rfl) rfl
  · exact settleNat_field (clampMask_at bs rfl rfl (k := 3) rfl) rfl
  · exact settleNat_field (clampMask_at bs rfl rfl (k := 4) rfl) rfl
  · exact settleNat_field (clampMask_at bs rfl rfl (k := 5) rfl) rfl
  · exact settleNat_field (clampMask_at bs rfl rfl (k := 6) rfl) rfl
  · exact settleNat_field (clampMask_at bs rfl rfl (k := 7) rfl) rfl
  · exact settleNat_field (clampMask_at bs rfl rfl (k := 14) rfl) rfl
  · exact settleNat_field (clampMask_at bs rfl rfl (k := 15) rfl) rfl
  · exact settleNat_field (clampMask_at bs rfl rfl (k := 16) rfl) rfl
  · exact settleNat_field (clampMask_at bs rfl rfl (k := 19) rfl) rfl

theorem signed_settled (bs : List Byte) : ∀ x ∈ signedFields,
    let v := fieldTaken (fieldAt bs 0 4) x.number x.dflt (signed16 (fieldAt bs x.offset 2))
    x.setting (configOf bs).settings = max x.least (min v x.most) ∧
      ((configOf bs).clampMask.testBit x.number = true ↔ v < x.least ∨ x.most < v) := by
  intro x hx
  simp only [signedFields, List.mem_cons, List.not_mem_nil, or_false] at hx
  rcases hx with rfl | rfl | rfl | rfl
  · exact settleInt_field (clampMask_at bs rfl rfl (k := 9) rfl) rfl
  · exact settleInt_field (clampMask_at bs rfl rfl (k := 11) rfl) rfl
  · exact settleInt_field (clampMask_at bs rfl rfl (k := 12) rfl) rfl
  · exact settleInt_field (clampMask_at bs rfl rfl (k := 13) rfl) rfl

/-- The alarm threshold, at most the warn threshold (R178). -/
theorem alarm_settled (bs : List Byte) :
    let alarm := fieldTaken (fieldAt bs 0 4) 21 (some 100) (fieldAt bs 81 2)
    let c := (configOf bs).settings
    c.alarm = min (max 50 (min alarm 1000)) c.warn ∧
      ((configOf bs).clampMask.testBit 21 = true ↔ alarm < 50 ∨ 1000 < alarm ∨ c.warn < max 50 (min alarm 1000)) := by
  intro alarm c
  have bit : (configOf bs).clampMask.testBit 21 =
      (decide (alarm < 50 ∨ 1000 < alarm) || decide (c.warn < max 50 (min alarm 1000))) := clampMask_at bs rfl rfl (k := 17) rfl
  refine ⟨rfl, ?_⟩
  rw [bit, Bool.or_eq_true, decide_eq_true_eq, decide_eq_true_eq, or_assoc]

/-- The LOW band threshold, at most the PEAK one (R178). -/
theorem low_settled (bs : List Byte) :
    let low := fieldTaken (fieldAt bs 0 4) 22 (some 500) (fieldAt bs 83 2)
    let c := (configOf bs).settings
    c.lowBand = min (min low 1000) c.peakBand ∧
      ((configOf bs).clampMask.testBit 22 = true ↔ 1000 < low ∨ c.peakBand < min low 1000) := by
  intro low c
  have value : c.lowBand = min (max 0 (min low 1000)) c.peakBand := rfl
  have bit : (configOf bs).clampMask.testBit 22 =
      (decide (low < 0 ∨ 1000 < low) || decide (c.peakBand < max 0 (min low 1000))) := clampMask_at bs rfl rfl (k := 18) rfl
  rw [Nat.zero_max] at value bit
  refine ⟨value, ?_⟩
  rw [bit, Bool.or_eq_true, decide_eq_true_eq, decide_eq_true_eq, or_iff_right (Nat.not_lt_zero low)]

/-- The four ratings, with one bit for all of them (R178). -/
theorem ratings_settled (bs : List Byte) : let c := (configOf bs).settings
    c.ratings = ⟨min (fieldAt bs 61 2) 300, min (fieldAt bs 63 2) 300, min (fieldAt bs 65 2) 300, min (fieldAt bs 67 2) 300⟩ ∧
      ((configOf bs).clampMask.testBit 14 = true ↔
        300 < fieldAt bs 61 2 ∨ 300 < fieldAt bs 63 2 ∨ 300 < fieldAt bs 65 2 ∨ 300 < fieldAt bs 67 2) := by
  intro c
  have value : c.ratings = ⟨max 0 (min (fieldAt bs 61 2) 300), max 0 (min (fieldAt bs 63 2) 300),
      max 0 (min (fieldAt bs 65 2) 300), max 0 (min (fieldAt bs 67 2) 300)⟩ := rfl
  have bit : (configOf bs).clampMask.testBit 14 =
      (decide (fieldAt bs 61 2 < 0 ∨ 300 < fieldAt bs 61 2) || decide (fieldAt bs 63 2 < 0 ∨ 300 < fieldAt bs 63 2) ||
        decide (fieldAt bs 65 2 < 0 ∨ 300 < fieldAt bs 65 2) || decide (fieldAt bs 67 2 < 0 ∨ 300 < fieldAt bs 67 2)) :=
    clampMask_at bs rfl rfl (k := 10) rfl
  refine ⟨by simpa using value, ?_⟩
  rw [bit]
  simp [or_assoc]

theorem wordsAt_length (bs : List Byte) (offset n : Nat) : (wordsAt bs offset n).length = n := by
  induction n generalizing offset with
  | zero => rfl
  | succ n ih => simp [wordsAt, ih]

theorem wordsAt_getD (bs : List Byte) {offset n k : Nat} (h : k < n) :
    (wordsAt bs offset n).getD k 0 = fieldAt bs (offset + 2 * k) 2 := by
  induction n generalizing offset k with
  | zero => exact absurd h (Nat.not_lt_zero k)
  | succ n ih =>
    cases k with
    | zero => rfl
    | succ k =>
      have next := ih (offset := offset + 2) (Nat.lt_of_succ_lt_succ h)
      rw [show offset + 2 * (k + 1) = offset + 2 + 2 * k by omega, ← next]
      rfl

/-- The derate table before its range: the default table or the sixteen fields of the block (R178). -/
def derateTaken (bs : List Byte) : List Nat := if (fieldAt bs 0 4).testBit 11 then defaultDerate else wordsAt bs 23 16

theorem derateTaken_length (bs : List Byte) : (derateTaken bs).length = 16 := by
  unfold derateTaken
  split
  · rfl
  · exact wordsAt_length _ _ _

theorem derateTaken_getD (bs : List Byte) {k : Nat} (h : k < 16) : (derateTaken bs).getD k 0 =
    if (fieldAt bs 0 4).testBit 11 then defaultDerate.getD k 0 else fieldAt bs (23 + 2 * k) 2 := by
  unfold derateTaken
  split
  · rfl
  · exact wordsAt_getD bs h

/-- The derate table, with one bit for all its entries (R178). -/
theorem derate_settled (bs : List Byte) :
    let derate := fun (k : Nat) => if (fieldAt bs 0 4).testBit 11 then defaultDerate.getD k 0 else fieldAt bs (23 + 2 * k) 2
    let c := (configOf bs).settings
    c.derate.length = 16 ∧ (∀ k, k < 16 → c.derate.getD k 0 = min (derate k) 1000) ∧
      ((configOf bs).clampMask.testBit 11 = true ↔ ∃ k, k < 16 ∧ 1000 < derate k) := by
  intro derate c
  have table : c.derate = (derateTaken bs).map (fun v => min v 1000) := by
    have value : c.derate = ((derateTaken bs).map (fun v => settleNat false 0 0 1000 v)).map (fun x => x.1) := rfl
    rw [value, List.map_map]
    exact List.map_congr_left fun v _ => Nat.zero_max _
  have bit : (configOf bs).clampMask.testBit 11 = (((derateTaken bs).map (fun v => settleNat false 0 0 1000 v)).any (fun x => x.2)) :=
    clampMask_at bs rfl rfl (k := 8) rfl
  have entry {k : Nat} (hk : k < 16) : derate k = (derateTaken bs).getD k 0 := (derateTaken_getD bs hk).symm
  refine ⟨by rw [table, List.length_map, derateTaken_length], fun k hk => ?_, ?_⟩
  · rw [table, entry hk]
    have inside : k < (derateTaken bs).length := by rwa [derateTaken_length]
    simp [List.getD_eq_getElem?_getD, inside]
  · rw [bit, List.any_map, List.any_eq_true]
    constructor
    · rintro ⟨v, hv, high⟩
      obtain ⟨k, hk, rfl⟩ := List.getElem_of_mem hv
      have inside : k < 16 := by rwa [derateTaken_length] at hk
      refine ⟨k, inside, ?_⟩
      rw [entry inside, List.getD_eq_getElem _ _ hk]
      simpa [settleNat] using high
    · rintro ⟨k, inside, high⟩
      have hk : k < (derateTaken bs).length := by rwa [derateTaken_length]
      rw [entry inside, List.getD_eq_getElem _ _ hk] at high
      exact ⟨_, List.getElem_mem hk, by simpa [settleNat] using high⟩

/-! ## The zone order (R68, R177) -/

theorem zoneOfByte_number {n : Nat} {z : ZoneId} (h : zoneOfByte n = some z) : zoneNumber z = n := by
  unfold zoneOfByte at h
  split at h <;> cases h <;> rfl

theorem zoneOfByte_zoneNumber (z : ZoneId) : zoneOfByte (zoneNumber z) = some z := by cases z <;> rfl

theorem numbers_of_named {bs : List Byte} {zs : List ZoneId} (h : bs.map (fun b => zoneOfByte b.toNat) = zs.map some) :
    zs.map zoneNumber = bs.map BitVec.toNat := by
  induction bs generalizing zs with
  | nil => simpa using h
  | cons b bs ih =>
    cases zs with
    | nil => cases h
    | cons z zs =>
      obtain ⟨first, rest⟩ := List.cons_eq_cons.1 h
      rw [List.map_cons, List.map_cons, ih rest, zoneOfByte_number first]

/-- Four different zones named by four bytes are their zone order. -/
theorem zoneOrderOf_named {bs : List Byte} {zs : List ZoneId} (h : bs.map (fun b => zoneOfByte b.toNat) = zs.map some)
    (len : zs.length = 4) (distinct : zs.Nodup) : zoneOrderOf bs = some zs := by
  match zs, len with
  | [a, b, c, d], _ =>
    unfold zoneOrderOf
    rw [h]
    exact if_pos (by simpa [and_assoc] using distinct)

/-- The zone order of four bytes names the zones by their numbers. -/
theorem zoneOrderOf_numbers {bs : List Byte} {zs : List ZoneId} (h : zoneOrderOf bs = some zs) :
    zs.map zoneNumber = bs.map BitVec.toNat := by
  unfold zoneOrderOf at h
  split at h
  · next a b c d named =>
    split at h
    · cases h
      exact numbers_of_named named
    · cases h
  · cases h

theorem zoneOrderOf_perm {bs : List Byte} {zs : List ZoneId} (h : zoneOrderOf bs = some zs) : zs.Perm allZones := by
  have four : zs.length ≤ allZones.length := by
    unfold zoneOrderOf at h
    split at h
    · split at h <;> cases h
      exact le_rfl
    · cases h
  have nodup : allZones.Nodup := by decide
  exact ((nodup.subperm fun z _ => zoneOrderOf_names h z).perm_of_length_le four).symm

theorem exists_named {bs : List Byte} (h : ∀ b ∈ bs, ∃ z, zoneOfByte b.toNat = some z) :
    ∃ zs : List ZoneId, bs.map (fun b => zoneOfByte b.toNat) = zs.map some := by
  induction bs with
  | nil => exact ⟨[], rfl⟩
  | cons b bs ih =>
    obtain ⟨z, first⟩ := h b List.mem_cons_self
    obtain ⟨zs, rest⟩ := ih fun c hc => h c (List.mem_cons_of_mem _ hc)
    exact ⟨z :: zs, by rw [List.map_cons, List.map_cons, first, rest]⟩

theorem zoneOrderOf_isNone_iff {bs : List Byte} : (zoneOrderOf bs).isNone = true ↔ ¬ (bs.map BitVec.toNat).Perm [1, 2, 3, 4] := by
  have all : allZones.map zoneNumber = [1, 2, 3, 4] := rfl
  rw [← Bool.not_eq_false, not_iff_not, Option.isNone_eq_false_iff, Option.isSome_iff_exists]
  constructor
  · rintro ⟨zs, order⟩
    rw [← zoneOrderOf_numbers order, ← all]
    exact (zoneOrderOf_perm order).map zoneNumber
  · intro perm
    obtain ⟨zs, named⟩ : ∃ zs : List ZoneId, bs.map (fun b => zoneOfByte b.toNat) = zs.map some := by
      refine exists_named fun b hb => ?_
      have number := perm.subset (List.mem_map_of_mem hb)
      rw [← all] at number
      obtain ⟨z, -, hz⟩ := List.mem_map.1 number
      exact ⟨z, by rw [← hz, zoneOfByte_zoneNumber]⟩
    have numbers := numbers_of_named named
    rw [← numbers] at perm
    exact ⟨zs, zoneOrderOf_named named (by simpa using perm.length_eq)
      (List.Nodup.of_map zoneNumber (perm.nodup_iff.2 (by decide)))⟩

theorem configRefused_iff {bs : List Byte} (len : bs.length = 91) : configRefused bs = true ↔
    fieldAt bs 4 1 = 0 ∨ 63 < fieldAt bs 4 1 ∨ fieldAt bs 5 1 = 0 ∨ fieldAt bs 6 2 = 0 ∨
      (fieldAt bs 0 4).testBit 13 = false ∧ ¬ (((bs.drop 57).take 4).map BitVec.toNat).Perm [1, 2, 3, 4] := by
  have whole : ¬ bs.length ≠ configLength := fun h => h len
  rw [configRefused, Bool.or_eq_true, Bool.or_eq_true, Bool.or_eq_true, Bool.or_eq_true, decide_eq_true_eq, decide_eq_true_eq,
    decide_eq_true_eq, decide_eq_true_eq, Bool.and_eq_true, zoneOrderOf_isNone_iff, Bool.not_eq_true', usesDefault]
  simp only [whole, false_or, or_assoc, and_comm]

/-- An accepted block is settled by R178, field by field. -/
theorem configOf_settled {bs : List Byte} (len : bs.length = 91) (accepted : configRefused bs = false) :
    BlockSettled bs (configOf bs).settings (configOf bs).clampMask := by
  obtain ⟨alarm, alarmBit⟩ := alarm_settled bs
  obtain ⟨low, lowBit⟩ := low_settled bs
  obtain ⟨length, derate, derateBit⟩ := derate_settled bs
  obtain ⟨ratings, ratingsBit⟩ := ratings_settled bs
  refine ⟨rfl, rfl, plain_settled bs, signed_settled bs, alarm, alarmBit, low, lowBit, length, derate, derateBit, ratings, ratingsBit,
    rfl, fun dflt => ?_, fun sent => ?_, fun n other => clampMask_other bs rfl rfl other⟩
  · rw [configOf_zoneOrder, usesDefault, dflt]
    rfl
  · obtain ⟨zs, order⟩ : ∃ zs, zoneOrderOf ((bs.drop 57).take 4) = some zs := by
      by_contra none
      have missing : (zoneOrderOf ((bs.drop 57).take 4)).isNone = true := by
        rw [Option.isNone_iff_eq_none, ← Option.not_isSome_iff_eq_none, Option.isSome_iff_exists]
        exact none
      have refused := (configRefused_iff len).2 (.inr (.inr (.inr (.inr ⟨sent, zoneOrderOf_isNone_iff.1 missing⟩))))
      rw [accepted] at refused
      cases refused
    rw [configOf_zoneOrder, usesDefault, sent, order]
    exact zoneOrderOf_numbers order

/-! ## The entry to READY (R158) -/

theorem served_configure {op : OpState} (h : op = .start) : served codeConfigure op = true := by rw [h]; rfl

/-- What the entry to READY that CONFIGURE brings leaves of the shares, the demand and the line (R45, R158). -/
theorem configured_kept (c : Configured) (s : State) : let r := configured c s
    r.shu.record.grant = 0 ∧ r.shu.record.zeroCause = .noSession ∧ r.dmu.weight = s.dmu.weight ∧ r.dmu.target = s.dmu.target ∧
      r.dli.sequence = sequenceSeed c.settings.stationCode ∧ r.htr.cycleStart = none := by
  intro r
  have ready : (configuring c s).stc.op ≠ .session := nofun
  obtain ⟨-, -, grant, cause⟩ := regrant_quiet ready
  obtain ⟨dmu, shu, -, -, cycle, -⟩ := resplit_spec (regrant (configuring c s))
  have record : r.shu.record = (regrant (configuring c s)).shu.record :=
    (congrArg Shu.record shu :)
  obtain ⟨-, weight, -, target, -⟩ :=
    split_kept (regrant (configuring c s)).cfg.tPermit (regrant (configuring c s)).shu.limit (regrant (configuring c s)).dmu
  have figures : r.dmu = _ := dmu
  have seed : (configuring c s).dli.sequence = sequenceSeed c.settings.stationCode := rfl
  refine ⟨by rw [record, grant], by rw [record, cause], ?_, ?_, ?_, ?_⟩
  · rw [figures, weight, regrant_dmu]
    rfl
  · rw [figures, target, regrant_dmu]
    rfl
  · show (regrant (configuring c s)).dli.sequence = _
    rw [regrant_dli]
    split
    · exact (queueFrame_times _ _ _ _).2.1.trans seed
    · exact seed
  · exact cycle.trans (by rw [regrant_htr]; rfl)

/-- Settles O35: the refusal by `configRefused_iff`, the settings by `configOf_settled`, and the entry to READY. -/
theorem configureAnswers : Obligations.ConfigureAnswers := by
  intro t tag params s s0 ready start len order refused
  have ok := served_configure start
  have work : takeRequest codeConfigure tag params (serveConfigure tag params) s0 = serveConfigure tag params (closeTransaction s0) := by
    rw [takeRequest_ready ready, handOver_served (s := closeTransaction s0) ok len]
  refine ⟨fun no => congrArg Host.Outcome.next (event_link ?_), fun yes => ?_⟩
  · rw [work, serveConfigure, if_pos ((configRefused_iff len).2 no)]
    rfl
  have accepted : configRefused params = false := by
    rw [← Bool.not_eq_true, configRefused_iff len]
    exact yes
  let r := answer { tag := tag, code := codeConfigure, result := .done, clampMask := (configOf params).clampMask, data := [] }
    (configured (configOf params) (closeTransaction s0))
  have run : exec (.configure t tag params) s = .next r := by
    have enters : serveConfigure tag params (closeTransaction s0) = r := by
      rw [serveConfigure, accepted]
      rfl
    have outside : r.stc.op ≠ .session := by
      show (configured (configOf params) (closeTransaction s0)).stc.op ≠ _
      rw [configured_stc]
      exact nofun
    refine congrArg Host.Outcome.next ?_
    rw [event, work, enters, finish_outside outside]
  clear_value s0
  obtain ⟨grant, cause, weight, target, sequence, cycle⟩ := configured_kept (configOf params) (closeTransaction s0)
  have stc := configured_stc (configOf params) (closeTransaction s0)
  have cfg : r.cfg = (configOf params).settings := by simp [r, configured_eq, configuring, emptyTable]
  have ptb : r.ptb = { entries := [], unlisted := none, feeder := r.cfg.feederLimit, mismatch := false } := by
    simp [r, configured_eq, configuring, emptyTable]
  have mtr : r.mtr = { s0.mtr.enterReady with periodEnd := some (s0.now + 250000) } := by
    simp [r, configured_eq, configuring, emptyTable, Config.sampleMicros]
  have vlk : (configured (configOf params) (closeTransaction s0)).vlk =
      { s0.vlk with txn := none, marks := { s0.vlk.marks with stateChanged := true } } := by
    rw [configured_eq, resplit_vlk, regrant_vlk]
    rfl
  refine ⟨r, (configOf params).clampMask, run, by rw [cfg]; exact configOf_settled len accepted, (congrArg Stc.op stc :),
    (congrArg Stc.clockSet stc :), (congrArg Stc.clockMicros stc :), ?_, ptb, (congrArg Mtr.periodEnd mtr :),
    (congrArg Mtr.presence mtr :), (congrArg Mtr.run mtr :), cycle, grant, cause, (congrArg (fun v => v.marks.stateChanged) vlk :), rfl,
    (congrArg Vlk.txn vlk :), (congrArg Stc.contactor stc :), ?_, ?_, ?_, ?_, ?_, ?_, (congrArg Mtr.lifetime mtr :),
    (congrArg Mtr.offset mtr :), weight, target, ?_, ?_⟩
  · refine sequence.trans (congrArg (BitVec.ofNat 16) ?_)
    exact (Nat.mul_succ _ 256).symm
  all_goals simp [r, configured_eq, configuring, emptyTable]

end Sys2Proof.Proofs
end

section
/-! PROOF. Frames that reach the peer table: how an arrival is handed on, the own code (R11), ANNOUNCE (R3 to R5, R12) and LEAVE
(R8); and what a halt keeps. -/

namespace Sys2Proof.Proofs
open Sys2Proof.Machine

/-! ## An arrival handed on (R149, R150, R154) -/

/-- The state once the line's marks have moved to the end of a frame (R149, R154). -/
def heard (h : Header) (p : Payload) (s : State) : State :=
  lineIdle (idleAfter s.now (arrivedFrame h p).lineBits) (s.now + Config.gapMicros) s

theorem heard_eq (h : Header) (p : Payload) (s : State) : heard h p s = { s with dli := { s.dli with
    gapFrom := idleAfter s.now (arrivedFrame h p).lineBits, framerFrom := s.now + 192 } } := rfl

theorem exec_arrivalOf (t : Nat) (h : Header) (p : Payload) (s : State) :
    exec (arrivalOf t h p) s = .next (event t (arrive h p) s) := by cases p <;> rfl

theorem arrive_sending {h : Header} {p : Payload} {s : State} {a : Attempt} (sending : s.dli.attempt = some a) :
    arrive h p s = s := unlessSending_sending sending

theorem arrive_reaches {h : Header} {p : Payload} {s : State} (reaches : Reaches h s) :
    arrive h p s = handleFrame h.code p (heard h p s) := by
  obtain ⟨free, header, took, foreign, takes⟩ := reaches
  rw [arrive, unlessSending_free free, frameArrives]
  simp only [header, took, foreign, takes, Bool.and_self, if_true, if_false]
  rfl

/-- A frame that reaches the table is its handling and then the event's tail. -/
theorem event_reaches {t : Nat} {h : Header} {p : Payload} {s : State} (reaches : Reaches h (elapse t s)) :
    event t (arrive h p) s = finish false (elapse t s) (handleFrame h.code p (heard h p (elapse t s))) := by
  rw [event, arrive_reaches reaches]

/-! ## What a halt keeps (R163, R165) -/

/-- A halt keeps the findings and the epoch number that the Insulation Unit holds (R102). -/
theorem halt_ins {c : FaultCode} {s : State} (h : s.stc.op.takesFrames = true) :
    (halt c s).ins.lastEpoch = s.ins.lastEpoch ∧ (halt c s).ins.busRecord = s.ins.busRecord := by
  obtain ⟨-, -, -, -, -, -, -, -, -, -, session, other⟩ := halt_spec c s h
  by_cases op : s.stc.op = .session
  · rw [(session op).1]
    exact ⟨rfl, rfl⟩
  · rw [(other op).1]
    exact ⟨rfl, rfl⟩

theorem raise_continue {c : FaultCode} (d : FaultDetail) {s : State} (h : isStop s.cfg.policies c = false) :
    raise c d s = recordFault c d s := by simp [raise, h]

theorem raise_stop {c : FaultCode} (d : FaultDetail) {s : State} (h : isStop s.cfg.policies c = true) :
    raise c d s = halt c (recordFault c d s) := by simp [raise, h]

theorem halt_off {c : FaultCode} {s : State} (h : s.stc.op.takesFrames = false) : halt c s = s := by
  unfold halt
  cases op : s.stc.op <;> simp_all [OpState.takesFrames]

theorem recordFault_flt (c : FaultCode) (d : FaultDetail) (s : State) :
    (recordFault c d s).flt = faultAdded { time := clock s, code := c, detail := d, state := s.stc.op } s.flt := by
  rw [faultAdded_eq]
  rfl

/-- A stop-class fault raised on the line: its record, and the halt (R163, R165). -/
theorem raise_halts {c : FaultCode} (d : FaultDetail) {s : State} (stop : isStop s.cfg.policies c = true)
    (takes : s.stc.op.takesFrames = true) : let t := raise c d s
    t.stc.op = .halted ∧ t.shu.limit = 0 ∧ t.shu.intent = 0 ∧ t.epi = s.epi.leaveBus ∧ t.dli.announce = none ∧
      t.dli.queue.leave = some { content := .none, failed := 0 } ∧
      (∀ k, k ≠ .announce → k ≠ .epoch → k ≠ .leave → t.dli.queue.get k = s.dli.queue.get k) ∧
      t.ptb = { s.ptb with
        entries := s.ptb.entries.map (fun e => { e with claimant := isMember e.code s.epi.leaveBus.claimants }) } ∧
      t.vlk.marks.fault = true ∧ t.vlk.marks.stateChanged = true ∧
      t.flt = faultAdded { time := clock s, code := c, detail := d, state := s.stc.op } s.flt ∧
      t.ins.lastEpoch = s.ins.lastEpoch ∧ t.ins.busRecord = s.ins.busRecord := by
  intro t
  have eq : t = halt c (recordFault c d s) := raise_stop d stop
  obtain ⟨op, limit, intent, epi, announce, leave, others, ptb, fault, changed, -⟩ := halt_spec c (recordFault c d s) takes
  obtain ⟨last, bus⟩ := halt_ins (c := c) (s := recordFault c d s) takes
  have flt : (halt c (recordFault c d s)).flt =
      faultAdded { time := clock s, code := c, detail := d, state := s.stc.op } s.flt := by rw [halt_flt, recordFault_flt]
  rw [eq]
  exact ⟨op, limit, intent, epi, announce, leave, others, ptb, fault, changed, flt, last, bus⟩

/-- Settles O43: a station that is sending takes nothing; on the line `raise_halts`; and elsewhere the record alone. -/
theorem ownCodeHalts : Obligations.OwnCodeHalts := by
  intro t h p s s0
  refine ⟨fun a sending => ?_, ?_⟩
  · rw [exec_arrivalOf]
    have same : arrive h p s0 = s0 := arrive_sending sending
    exact congrArg Host.Outcome.next ((event_quiet (by rw [same]) (by rw [same])).trans same)
  intro free header took own noted
  have work : arrive h p s0 = raise .codeConflict (.number h.code) (heard h p s0) := by
    rw [arrive, unlessSending_free free, frameArrives]
    rw [if_pos (by rw [header, took]; rfl), if_pos own]
    rfl
  refine ⟨fun takes => ?_, fun off => ?_⟩
  · obtain ⟨op, limit, intent, -, announce, leave, -, ptb, fault, changed, flt, last, -⟩ :=
      raise_halts (c := .codeConflict) (.number h.code) (s := heard h p s0) rfl takes
    have run : exec (arrivalOf t h p) s = .next (raise .codeConflict (.number h.code) (heard h p s0)) := by
      rw [exec_arrivalOf, event, work, finish_outside (by rw [op]; decide)]
    clear_value s0
    refine ⟨_, run, op, flt, fault, changed, leave, announce, limit, intent, ?_, ?_, last, ?_, ?_, ?_, ?_, ?_⟩
    · rw [ptb, List.map_map]
      rfl
    · rw [ptb]
      rfl
    all_goals simp [heard]
  · have quiet : (heard h p s0).stc.op.takesFrames = false := by
      show s0.stc.op.takesFrames = false
      rcases off with op | op <;> rw [op] <;> rfl
    have recorded : arrive h p s0 = recordFault .codeConflict (.number h.code) (heard h p s0) := by
      rw [work, raise_stop _ rfl, halt_off (by exact quiet)]
    have event_ : event t (arrive h p) s = recordFault .codeConflict (.number h.code) (heard h p s0) := by
      rw [event_quiet (by rw [recorded]; rfl) (by rw [recorded]; rfl), recorded]
    rw [exec_arrivalOf, event_]
    have flt : (recordFault .codeConflict (.number h.code) (heard h p s0)).flt = noted := recordFault_flt _ _ _
    rw [← flt]
    rfl

/-- What a change of the table passes on does not look at the entries, the unlisted timer and the episode before it. -/
theorem tableSettled_table {b t : State} (es : List PeerEntry) (unlisted : Option Nat) (epi : Epi)
    (h : TableSettled { b with ptb := { b.ptb with entries := es, unlisted := unlisted }, epi := epi } t) : TableSettled b t := h

/-! ## LEAVE (R8) -/

theorem removeEntry_absent {code : Nat} {es : List PeerEntry} (h : findEntry code es = none) : removeEntry code es = es := by
  rw [findEntry_none_iff] at h
  rw [removeEntry, List.filter_eq_self]
  intro e he
  simpa using h e he

/-- The state a LEAVE leaves before its change of the table is passed on. -/
theorem left_eq (h : Header) (s : State) :
    claimantDeparted h.code (setEntries (removeEntry h.code s.ptb.entries) (heard h .leave s)) = { s with
      dli := { s.dli with gapFrom := idleAfter s.now (arrivedFrame h .leave).lineBits, framerFrom := s.now + 192 }
      epi := { s.epi with claimants := markDeparted true h.code s.epi.claimants }
      ptb := { s.ptb with entries := s.ptb.entries.filter (fun x => x.code != h.code) } } := by
  rw [heard_eq]
  rfl

/-- Settles O48: with an entry, a change of the table; without one, the departure told alone. -/
theorem leaveArrivalTaken : Obligations.LeaveArrivalTaken := by
  intro t h s s0 reaches d told
  have run : exec (.leaveArrival t h) s = .next (finish false s0 (handleLeave h.code (heard h .leave s0))) :=
    congrArg Host.Outcome.next (event_reaches (p := .leave) reaches)
  clear_value s0
  let left := claimantDeparted h.code (setEntries (removeEntry h.code s0.ptb.entries) (heard h .leave s0))
  refine ⟨fun e found => ?_, fun none => ⟨?_, removeEntry_absent none⟩⟩
  · have changes : handleLeave h.code (heard h .leave s0) = tableChanged left := by
      have found' : findEntry h.code (heard h .leave s0).ptb.entries = some e := found
      rw [handleLeave, found']
      rfl
    rw [changes] at run
    obtain ⟨settled, entries, unlisted, epi⟩ := tableChanged_settled false s0 left
    exact ⟨_, run, entries, unlisted, epi, tableSettled_table _ _ _ settled⟩
  · have same : handleLeave h.code (heard h .leave s0) = left := by
      have none' : findEntry h.code (heard h .leave s0).ptb.entries = .none := none
      rw [handleLeave, none']
      rfl
    have quiet : finish false s0 left = left := finish_quiet rfl rfl
    rw [run, same, quiet]
    exact congrArg Host.Outcome.next (left_eq h s0)

/-! ## ANNOUNCE (R3 to R5, R12) -/

theorem handleAnnounce_out {code : Nat} {f : ShareFields} {s : State} (h : shareInRange f = false) : handleAnnounce code f s = s := by
  simp [handleAnnounce, h]

theorem handleAnnounce_found {code : Nat} {f : ShareFields} {s : State} {e : PeerEntry} (h : shareInRange f = true)
    (found : findEntry code s.ptb.entries = some e) : handleAnnounce code f s =
      tableChanged (setEntries (updateEntry code (PeerEntry.announced f) s.ptb.entries) s) := by simp [handleAnnounce, h, found]

theorem handleAnnounce_new {code : Nat} {f : ShareFields} {s : State} (h : shareInRange f = true)
    (absent : findEntry code s.ptb.entries = none) (room : s.ptb.entries.length < 24) :
    handleAnnounce code f s = tableChanged (createEntry code f s) := by simp [handleAnnounce, h, absent, Config.peerCapacity, room]

theorem handleAnnounce_full {code : Nat} {f : ShareFields} {s : State} (h : shareInRange f = true)
    (absent : findEntry code s.ptb.entries = none) (full : 24 ≤ s.ptb.entries.length) :
    handleAnnounce code f s = unlistedAnnounce code s := by
  simp [handleAnnounce, h, absent, Config.peerCapacity, Nat.not_lt.2 full]

/-- While the unlisted-peer timer runs the grant is 0 (R29). -/
theorem grant_unlisted {s : State} (h : s.ptb.unlisted.isSome = true) : (computeGrant s.grantInputs).grant = 0 := by
  have cause : s.grantInputs.cause ≠ .none := by
    simp only [GrantInputs.cause, State.grantInputs, h]
    split <;> simp
  exact if_neg cause

/-- The state an unlisted ANNOUNCE leaves while the timer runs (R12). -/
theorem unlisted_eq (h : Header) (f : ShareFields) (s : State) : startUnlisted (heard h (.announce f) s) = { s with
      dli := { s.dli with gapFrom := idleAfter s.now (arrivedFrame h (.announce f)).lineBits, framerFrom := s.now + 192 }
      ptb := { s.ptb with unlisted := some (s.now + 6 * s.cfg.ta * 1000) } } := by
  rw [heard_eq]
  rfl

/-- A further unlisted ANNOUNCE starts the timer again and does nothing else (R12). -/
theorem finish_unlisted_again {h : Header} {f : ShareFields} {s : State} (inside : shareInRange f = true)
    (absent : findEntry h.code s.ptb.entries = none) (full : 24 ≤ s.ptb.entries.length) (runs : s.ptb.unlisted.isSome = true) :
    finish false s (handleAnnounce h.code f (heard h (.announce f) s)) = { s with
      dli := { s.dli with gapFrom := idleAfter s.now (arrivedFrame h (.announce f)).lineBits, framerFrom := s.now + 192 }
      ptb := { s.ptb with unlisted := some (s.now + 6 * s.cfg.ta * 1000) } } := by
  have again : handleAnnounce h.code f (heard h (.announce f) s) = startUnlisted (heard h (.announce f) s) := by
    rw [handleAnnounce_full (s := heard h _ s) inside absent full]
    exact if_pos runs
  rw [again, unlisted_eq]
  exact finish_quiet rfl rfl

/-- The first unlisted ANNOUNCE: the timer, TABLE_FULL, and a grant of 0 (R12, R29). -/
theorem finish_unlisted_first {h : Header} {f : ShareFields} {s : State} (inside : shareInRange f = true)
    (absent : findEntry h.code s.ptb.entries = none) (full : 24 ≤ s.ptb.entries.length) (stopped : s.ptb.unlisted = none) :
    let r := finish false s (handleAnnounce h.code f (heard h (.announce f) s))
    r.ptb.entries = s.ptb.entries ∧ r.ptb.unlisted = some (s.now + 6 * s.cfg.ta * 1000) ∧ r.shu.record.grant = 0 ∧
      r.epi = s.epi ∧ TableSettled { s with
        dli := { s.dli with gapFrom := idleAfter s.now (arrivedFrame h (.announce f)).lineBits, framerFrom := s.now + 192 }
        flt := faultAdded { time := clock s, code := .tableFull, detail := .number h.code, state := s.stc.op } s.flt
        vlk := { s.vlk with marks := { s.vlk.marks with fault := true } } } r := by
  intro r
  have starts : handleAnnounce h.code f (heard h (.announce f) s) =
      tableChanged (recordFault .tableFull (.number h.code) (startUnlisted (heard h (.announce f) s))) := by
    have idle : ¬ (heard h (.announce f) s).ptb.unlisted.isSome = true := by
      rw [show (heard h (.announce f) s).ptb.unlisted = none from stopped]
      decide
    rw [handleAnnounce_full (s := heard h _ s) inside absent full, unlistedAnnounce, if_neg idle, raise_continue _ rfl]
  have eq : r = finish false s (tableChanged (recordFault .tableFull (.number h.code) (startUnlisted (heard h (.announce f) s)))) :=
    congrArg (finish false s) starts
  clear_value r
  subst eq
  rw [unlisted_eq]
  obtain ⟨settled, entries, unlisted, epi⟩ := tableChanged_settled false s (recordFault .tableFull (.number h.code) { s with
      dli := { s.dli with gapFrom := idleAfter s.now (arrivedFrame h (.announce f)).lineBits, framerFrom := s.now + 192 }
      ptb := { s.ptb with unlisted := some (s.now + 6 * s.cfg.ta * 1000) } })
  refine ⟨entries, unlisted, ?_, epi, ?_⟩
  · rw [finish_shu, tableChanged, settleTable_record]
    refine grant_unlisted ?_
    rw [refreshFeeder_ptb]
    rfl
  · rw [faultAdded_eq]
    exact tableSettled_table _ _ _ settled

/-- Settles O44: the five cases of `handleAnnounce`, each change of the table settled by `tableChanged_settled`. -/
theorem announceArrivalTaken : Obligations.AnnounceArrivalTaken := by
  intro t h f s s0 reaches d es ends
  have run : exec (.announceArrival t h f) s = .next (finish false s0 (handleAnnounce h.code f (heard h (.announce f) s0))) :=
    congrArg Host.Outcome.next (event_reaches (p := .announce f) reaches)
  clear_value s0
  refine ⟨fun out => ?_, fun e inside found => ?_, fun inside absent room => ?_, fun inside absent full runs => ?_,
    fun inside absent full stopped => ?_⟩
  · rw [run, handleAnnounce_out out]
    exact congrArg Host.Outcome.next (finish_quiet rfl rfl)
  · rw [handleAnnounce_found (s := heard h _ s0) inside found] at run
    obtain ⟨settled, entries, unlisted, epi⟩ := tableChanged_settled false s0
      (setEntries (updateEntry h.code (PeerEntry.announced f) es) (heard h (.announce f) s0))
    exact ⟨_, run, entries, unlisted, epi, tableSettled_table _ _ _ settled⟩
  · rw [handleAnnounce_new (s := heard h _ s0) inside absent room] at run
    obtain ⟨settled, entries, unlisted, epi⟩ := tableChanged_settled false s0 (createEntry h.code f (heard h (.announce f) s0))
    exact ⟨_, run, entries, unlisted, epi, tableSettled_table _ _ _ settled⟩
  · exact run.trans (congrArg Host.Outcome.next (finish_unlisted_again inside absent full runs))
  · exact ⟨_, run, finish_unlisted_first inside absent full stopped⟩

end Sys2Proof.Proofs
end

section
/-! PROOF. Timers and thresholds: the ages of the peer entries (R9, R10, R13), the hold, the announce timer and the listen window (R40,
R45, R159), the insulation timers (R86, R97, R111), and the converter's fault input (R47). -/

namespace Sys2Proof.Proofs
open Sys2Proof.Machine

/-- An event whose work is known, and the event's tail after it. -/
theorem event_eq {t : Nat} {f : State → State} {s x : State} (work : f (elapse t s) = x) :
    event t f s = finish false (elapse t s) x := by rw [event, work]

/-! ## Ageing (R9, R10, R13) -/

theorem goStale_due {code : Nat} {e : PeerEntry} {s : State} (found : findEntry code s.ptb.entries = some e)
    (fresh : e.freshness = .fresh) (silent : 3 * s.cfg.ta * 1000 ≤ e.silence) :
    goStale code s = tableChanged (setEntries (updateEntry code PeerEntry.goStale s.ptb.entries) s) := by
  rw [goStale, found]
  exact if_pos (decide_eq_true ⟨fresh, silent⟩)

theorem removeSilent_due {code : Nat} {e : PeerEntry} {s : State} (found : findEntry code s.ptb.entries = some e)
    (silent : 6 * s.cfg.ta * 1000 ≤ e.silence) :
    removeSilent code s = tableChanged (claimantDeparted code (setEntries (removeEntry code s.ptb.entries) s)) := by
  rw [removeSilent, found]
  exact if_pos (decide_eq_true silent)

theorem unlistedEnds_due {m : Nat} {s : State} (runs : s.ptb.unlisted = some m) (passed : m ≤ s.now) :
    unlistedEnds s = tableChanged { s with ptb := { s.ptb with unlisted := none } } := by
  rw [unlistedEnds, runs]
  exact if_pos (decide_eq_true passed)

/-- Settles O52: each is a change of the table. -/
theorem ageingTaken : Obligations.AgeingTaken := by
  intro t code e m s s0
  refine ⟨fun found fresh silent => ?_, fun found silent => ?_, fun runs passed => ?_⟩
  · have run : exec (.staleThreshold t code) s = .next _ := congrArg Host.Outcome.next (event_eq (goStale_due found fresh silent))
    obtain ⟨settled, entries, unlisted, epi⟩ := tableChanged_settled false s0
      (setEntries (updateEntry code PeerEntry.goStale s0.ptb.entries) s0)
    exact ⟨_, run, entries, unlisted, epi, tableSettled_table _ _ _ settled⟩
  · have run : exec (.removalThreshold t code) s = .next _ := congrArg Host.Outcome.next (event_eq (removeSilent_due found silent))
    obtain ⟨settled, entries, unlisted, epi⟩ := tableChanged_settled false s0
      (claimantDeparted code (setEntries (removeEntry code s0.ptb.entries) s0))
    exact ⟨_, run, entries, unlisted, epi, tableSettled_table _ _ _ settled⟩
  · have run : exec (.unlistedPeerTimerExpiry t) s = .next _ := congrArg Host.Outcome.next (event_eq (unlistedEnds_due runs passed))
    obtain ⟨settled, entries, unlisted, epi⟩ := tableChanged_settled false s0 { s0 with ptb := { s0.ptb with unlisted := none } }
    exact ⟨_, run, entries, unlisted, epi, tableSettled_table _ _ _ settled⟩

/-! ## The hold, the announce timer, the listen window (R40, R45, R159) -/

/-- The announce period lies within T_a/8 of T_a (R45). -/
theorem announcePeriod_bounds (ta : Nat) (r : Word16) :
    (ta - ta / 8) * 1000 ≤ announcePeriod ta r ∧ announcePeriod ta r ≤ (ta + ta / 8) * 1000 := by
  have jitter : r.toNat % (2 * (ta / 8) + 1) < 2 * (ta / 8) + 1 := Nat.mod_lt _ (by omega)
  rw [announcePeriod]
  constructor <;> exact Nat.mul_le_mul_right _ (by omega)

/-- At the hold timer's expiry the hold is complete exactly where every condition of R40 is met. -/
theorem holdComplete_iff (now ta : Nat) (es : List PeerEntry) (u : Shu) :
    holdComplete now ta es { u with holdTimer := none } = true ↔ u.hold = .holding ∧ u.raisePending = false ∧
      (∃ h, u.holdStart = some h ∧ h + 2 * ta * 1000 ≤ now) ∧ ∀ e ∈ es, e.freshness = .stale ∨ e.heard = true := by
  have passed : Shu.holdPassed now ta { u with holdTimer := none } = true ↔ ∃ h, u.holdStart = some h ∧ h + 2 * ta * 1000 ≤ now := by
    cases start : u.holdStart with
    | none => simp [Shu.holdPassed]
    | some h => simp [Shu.holdPassed, Nat.le_iff_lt_or_eq]
  simp only [holdComplete, Bool.and_eq_true, passed, decide_eq_true_eq, Bool.not_eq_true', List.all_eq_true, Bool.or_eq_true,
    and_assoc]

theorem holdTimerEnds_due {m : Nat} {s : State} (runs : s.shu.holdTimer = some m) (passed : m ≤ s.now) :
    holdTimerEnds s = resplit (holdTest { s with shu := { s.shu with holdTimer := none } }) := by
  rw [holdTimerEnds, runs]
  exact if_pos (decide_eq_true passed)

theorem listenWindowEnds_due {m : Nat} {s : State} (op : s.stc.op = .listening) (runs : s.stc.listenWindow = some m)
    (passed : m ≤ s.now) : listenWindowEnds s = startAnnounce s.now (queueFrame .announce .none (moveTo .linked s)) := by
  rw [listenWindowEnds, runs]
  exact if_pos ⟨op, decide_eq_true passed⟩

/-- An ANNOUNCE asked for stands in the queue (R147). -/
theorem queueFrame_announce_isSome {op : OpState} (c : TxContent) (d : Dli) (h : op ≠ .start) :
    (d.queueFrame op .announce c).queue.announce.isSome = true := by
  unfold Dli.queueFrame
  rw [if_neg h]
  split
  · rfl
  · split
    · next queued => simpa [TxQueue.get] using queued
    · rfl

theorem announceTimerEnds_due {m : Nat} {s : State} (runs : s.dli.announce = some m) (passed : m ≤ s.now) :
    announceTimerEnds s = startAnnounce m (queueFrame .announce .none s) := by
  rw [announceTimerEnds, runs]
  exact if_pos passed

theorem startAnnounce_queueFrame (m : Nat) (s : State) : startAnnounce m (queueFrame .announce .none s) = { s with
    dli := { s.dli.queueFrame s.stc.op .announce .none with
      sequence := sequenceDraw s.dli.sequence
      announce := some (m + announcePeriod s.cfg.ta (sequenceDraw s.dli.sequence)) } } := by
  obtain ⟨-, sequence, -⟩ := queueFrame_times s.stc.op .announce .none s.dli
  rw [startAnnounce, queueFrame, Dli.startAnnounce]
  simp only [sequence]

/-- Settles O53: the hold test with the split after it, an ANNOUNCE queued, and the move to LINKED with both. -/
theorem shareTimersTaken : Obligations.ShareTimersTaken := by
  refine ⟨announcePeriod_bounds, fun t m s => ?_⟩
  intro s0 r
  refine ⟨fun runs passed => ?_, fun runs passed => ?_, fun op runs passed => ?_⟩
  · intro met
    have run : exec (.holdTimerExpiry t) s =
        .next (finish false s0 (resplit (holdTest { s0 with shu := { s0.shu with holdTimer := none } }))) :=
      congrArg Host.Outcome.next (event_eq (holdTimerEnds_due runs passed))
    clear_value s0
    let b : State := { s0 with shu := { s0.shu with holdTimer := none } }
    obtain ⟨dmu, shu, zones, -⟩ := resplit_spec (holdTest b)
    obtain ⟨tail, -⟩ := finish_kept false s0 (resplit (holdTest b))
    have complete : holdComplete b.now b.cfg.ta b.ptb.entries b.shu = true ↔ met := holdComplete_iff _ _ _ _
    have shares := holdTest_shu b
    have queue := holdTest_dli b
    rw [holdTest_dmu, holdTest_cfg] at dmu
    rw [holdTest_htr, holdTest_cfg] at zones
    rw [resplit_cfg, holdTest_cfg] at tail
    have kept : (holdTest b).shu.holdTimer = none ∧ (holdTest b).shu.record = s0.shu.record ∧
        (holdTest b).shu.intent = s0.shu.intent ∧ (holdTest b).shu.setpoint = s0.shu.setpoint := by
      rw [shares]
      split <;> exact ⟨rfl, rfl, rfl, rfl⟩
    obtain ⟨timer, record, intent, setpoint⟩ := kept
    refine ⟨_, run, ?_, ?_, ?_, ?_, ?_, ?_, timer, record, intent, dmu, ?_, zones.trans tail, fun done => ?_, fun open_ => ?_⟩
    case refine_7 => exact congrArg (min · (resplit (holdTest b)).dmu.chargerAllow) setpoint
    case refine_8 =>
      rw [if_pos (complete.2 done)] at shares queue
      have peak : (holdTest b).shu.peak = if s0.shu.limit < (holdTest b).shu.limit then
          max s0.shu.peak (holdTest b).shu.limit else s0.shu.peak := by
        rw [shares]
        rfl
      exact ⟨(congrArg Shu.limit shares :), (congrArg Shu.hold shares :), (congrArg Shu.holdStart shares :), peak, queue⟩
    case refine_9 =>
      rw [if_neg (mt complete.1 open_)] at shares queue
      exact ⟨(congrArg Shu.limit shares :), (congrArg Shu.hold shares :), (congrArg Shu.holdStart shares :),
        (congrArg Shu.peak shares :), queue⟩
    all_goals simp [RestKept]
  · refine congrArg Host.Outcome.next ((event_eq (announceTimerEnds_due runs passed)).trans ?_)
    rw [startAnnounce_queueFrame]
    exact finish_quiet rfl rfl
  · obtain ⟨stc, -, -, -, -, -, vlk, -⟩ := moveTo_spec .linked s0 (by decide)
    have run : exec (.listenWindowExpiry t) s = .next (startAnnounce s0.now (queueFrame .announce .none (moveTo .linked s0))) := by
      refine congrArg Host.Outcome.next ((event_eq (listenWindowEnds_due op runs passed)).trans (finish_outside ?_))
      show (moveTo .linked (elapse t s)).stc.op ≠ .session
      rw [stc]
      exact nofun
    clear_value s0
    obtain ⟨-, -, grant, cause⟩ := regrant_quiet (s := setOp .linked s0) nofun
    have sequence : (moveTo .linked s0).dli.sequence = s0.dli.sequence := by
      show (regrant (setOp .linked s0)).dli.sequence = _
      rw [regrant_dli]
      split
      · exact (queueFrame_times _ _ _ _).2.1
      · rfl
    have now : (moveTo .linked s0).now = s0.now := by simp
    rw [startAnnounce_queueFrame] at run
    refine ⟨_, run, stc, queueFrame_announce_isSome _ _ (by rw [stc]; exact nofun), ?_, ?_, grant, cause, vlk, ?_⟩
    · exact congrArg sequenceDraw sequence
    · simp [sequence, r]
    · simp

/-! ## A fault raised, whatever its class (R163, R165) -/

/-- A raise records its own entry and posts FAULT, and the halt of a stop-class fault leaves both. -/
theorem faultRaised_raise (c : FaultCode) (d : FaultDetail) (s : State) : FaultRaised c d s (raise c d s) := by
  cases stop : isStop s.cfg.policies c with
  | false => exact raise_raised c d s stop
  | true =>
    cases takes : s.stc.op.takesFrames with
    | true =>
      obtain ⟨-, -, -, -, -, -, -, -, fault, -, flt, -⟩ := raise_halts d stop takes
      exact ⟨flt, fault⟩
    | false =>
      rw [raise_stop d stop, halt_off (s := recordFault c d s) takes]
      exact ⟨recordFault_flt c d s, rfl⟩

theorem moveTo_faultInput (op : OpState) (s : State) : (moveTo op s).shu.faultInput = s.shu.faultInput := by
  show (regrant (setOp op s)).shu.faultInput = _
  rw [regrant_shu, applyGrant_eq, grantTaken_faultInput]
  rfl

theorem halt_faultInput (c : FaultCode) (s : State) : (halt c s).shu.faultInput = s.shu.faultInput := by
  unfold halt
  split
  · rw [enterHalted_shu, depart_faultInput]
  · rw [enterHalted_shu, moveTo_faultInput, abandonSlot_shu]
  · rw [enterHalted_shu, moveTo_faultInput]
  · rfl

theorem raise_faultInput (c : FaultCode) (d : FaultDetail) (s : State) : (raise c d s).shu.faultInput = s.shu.faultInput := by
  rw [raise]
  split
  · exact halt_faultInput c (recordFault c d s)
  · rfl

theorem faultRaised_congr {c : FaultCode} {d : FaultDetail} {b b' t : State} (time : clock b' = clock b) (op : b'.stc.op = b.stc.op)
    (flt : b'.flt = b.flt) (h : FaultRaised c d b t) : FaultRaised c d b' t := by
  rw [FaultRaised, time, op, flt]
  exact h

/-- A latched episode stays as it is at the halt (R113). -/
theorem leaveBus_latched {e : Epi} (latched : e.state = .localFault ∨ e.state = .busFault ∨ e.state = .doubleFault) :
    e.leaveBus = { e with window := none } := by
  rcases latched with h | h | h <;> simp [Epi.leaveBus, h]

theorem raise_epi_latched {c : FaultCode} (d : FaultDetail) {s : State}
    (latched : s.epi.state = .localFault ∨ s.epi.state = .busFault ∨ s.epi.state = .doubleFault) (window : s.epi.window = none) :
    (raise c d s).epi = s.epi := by
  have same : s.epi.leaveBus = s.epi := by
    rw [leaveBus_latched latched, ← window]
  cases stop : isStop s.cfg.policies c with
  | false => rw [raise_continue d stop]; rfl
  | true =>
    cases takes : s.stc.op.takesFrames with
    | true =>
      obtain ⟨-, -, -, epi, -⟩ := raise_halts d stop takes
      exact epi.trans same
    | false => rw [raise_stop d stop, halt_off (s := recordFault c d s) takes]; rfl

/-- The input's level written (R47). -/
def inputAsserted (s : State) : State := { s with shu := { s.shu with faultInput := true } }

theorem converterInput_raises {s : State} (was : s.shu.faultInput = false) (takes : s.stc.op.takesFrames = true) :
    converterInput true s = raise .converter (.number s.shu.setpoint) (inputAsserted s) := if_pos (by simp [was, takes])

/-- Settles O60: CONVERTER is a stop-class fault, so its raise on the line halts. -/
theorem converterInputTaken : Obligations.ConverterInputTaken := by
  intro t b s s0
  refine ⟨fun idle => ?_, fun asserted was takes => ?_⟩
  · have work : converterInput b s0 = { s0 with shu := { s0.shu with faultInput := b } } := by
      refine if_neg ?_
      rcases idle with h | h | h <;> simp [h]
    exact congrArg Host.Outcome.next ((event_eq work).trans (finish_quiet rfl rfl))
  · subst asserted
    obtain ⟨op, limit, -, -, -, leave, -⟩ := raise_halts (c := .converter) (.number s0.shu.setpoint) (s := inputAsserted s0) rfl takes
    have run : exec (.converterFaultInput t true) s = .next (raise .converter (.number s0.shu.setpoint) (inputAsserted s0)) :=
      congrArg Host.Outcome.next ((event_eq (converterInput_raises was takes)).trans (finish_outside (by rw [op]; exact nofun)))
    clear_value s0
    exact ⟨_, run, op, faultRaised_congr rfl rfl rfl (faultRaised_raise .converter _ (inputAsserted s0)), raise_faultInput _ _ _,
      limit, leave, raise_cfg _ _ _, raise_now _ _ _, raise_pending _ _ _⟩

/-! ## The insulation timers (R86, R97, R111) -/

theorem epochTimerEnds_due {m : Nat} {s : State} (runs : s.ins.epochTimer = some m) (passed : m ≤ s.now) :
    epochTimerEnds s = if s.stc.op = .session ∧ s.ins.epochState = .idle then
      startOwnEpoch { s with ins := { s.ins with epochTimer := none } } else { s with ins := { s.ins with epochTimer := none } } := by
  rw [epochTimerEnds, runs]
  exact if_pos (decide_eq_true passed)

theorem lossDeadlineEnds_due {m : Nat} {s : State} (observes : s.ins.epochState = .observing)
    (runs : s.ins.lossDeadline = some m) (passed : m ≤ s.now) : lossDeadlineEnds s = loseEpoch s := by
  rw [lossDeadlineEnds, runs]
  exact if_pos ⟨observes, decide_eq_true passed⟩

theorem claimWindowExpires_due {m : Nat} {s : State} (waits : s.epi.state = .claimWait)
    (runs : s.epi.window = some m) (passed : m ≤ s.now) : claimWindowExpires s = claimWindowEnds s := by
  rw [claimWindowExpires, runs]
  exact if_pos ⟨waits, decide_eq_true passed⟩

theorem claimWindowEnds_none {o : Onset} {s : State} (none : s.epi.claimants = []) (began : s.epi.onset = some o) :
    claimWindowEnds s = raise .insBus (.number o.r) (setEpisode .busFault s) := by
  simp only [claimWindowEnds, none, began]

theorem claimWindowEnds_one {c : Claimant} {s : State} (one : s.epi.claimants = [c]) :
    claimWindowEnds s = setEpisode .attributed s := by simp only [claimWindowEnds, one]

/-- Settles O55: the own EPOCH made up, the observed epoch ended, and the claim window's two ends. -/
theorem insulationTimersTaken : Obligations.InsulationTimersTaken := by
  intro t m s s0 n half
  refine ⟨fun runs passed op idle => ?_, fun runs passed other => ?_, fun observes runs passed => ?_, fun waits runs passed =>
    ⟨fun o none began => ?_, fun c one => ?_⟩⟩
  · refine congrArg Host.Outcome.next ((event_eq ((epochTimerEnds_due runs passed).trans (if_pos ⟨op, idle⟩))).trans ?_)
    exact finish_quiet rfl rfl
  · refine congrArg Host.Outcome.next ((event_eq ((epochTimerEnds_due runs passed).trans (if_neg ?_))).trans ?_)
    · rintro ⟨op, idle⟩
      rcases other with h | h
      · exact h op
      · exact h idle
    · exact finish_quiet rfl rfl
  · have run : exec (.lossDeadline t) s = .next (finish false s0 (loseEpoch s0)) :=
      congrArg Host.Outcome.next (event_eq (lossDeadlineEnds_due observes runs passed))
    clear_value s0
    obtain ⟨zones, window, -⟩ := finish_kept false s0 (loseEpoch s0)
    refine ⟨_, run, rfl, rfl, rfl, rfl, rfl, rfl, rfl, rfl, rfl, rfl, window, ?_, rfl, rfl, rfl, rfl, rfl, rfl, rfl, zones⟩
    exact ⟨rfl, rfl, rfl, rfl, rfl, rfl, rfl, rfl⟩
  · have run : exec (.claimWindowExpiry t) s =
        .next (finish false s0 (raise .insBus (.number o.r) (setEpisode .busFault s0))) :=
      congrArg Host.Outcome.next (event_eq ((claimWindowExpires_due waits runs passed).trans (claimWindowEnds_none none began)))
    clear_value s0
    refine ⟨_, run, ?_, faultRaised_congr rfl rfl rfl (faultRaised_raise .insBus _ (setEpisode .busFault s0)), fun continues => ?_, fun stops takes => ?_⟩
    · exact raise_epi_latched (s := setEpisode .busFault s0) _ (.inr (.inl rfl)) rfl
    · rw [raise_continue (c := .insBus) (s := setEpisode .busFault s0) _ continues]
      exact ⟨⟨rfl, rfl, rfl, rfl, rfl, rfl, rfl, rfl⟩, rfl⟩
    · exact (raise_halts (c := .insBus) _ (s := setEpisode .busFault s0) stops takes).1
  · refine congrArg Host.Outcome.next ((event_eq ((claimWindowExpires_due waits runs passed).trans
      (claimWindowEnds_one one))).trans ?_)
    exact finish_quiet rfl rfl

end Sys2Proof.Proofs
end

section
/-! PROOF. The framer and the transmitter: readings that are no frame, the start of an attempt, the end of a backoff (R149, R153, R154),
the frames sent (R151) and the attempts that fail (R152, R153). -/

namespace Sys2Proof.Proofs
open Sys2Proof.Machine

/-! ## The framer's readings (R154) -/

theorem receiveBits_none {begun : Nat} {bits : List Bool} {s : State} (unread : readFrame s.cfg.depotCode bits = none)
    (free : s.dli.attempt = none) :
    receiveBits begun bits s = lineIdle (idleAfter s.now bits) (framerAfter s.now bits) s := by
  rw [receiveBits, unread]
  exact unlessSending_free free

theorem receiveBits_some {begun : Nat} {bits : List Bool} {f : Frame} {s : State} (read : readFrame s.cfg.depotCode bits = some f) :
    receiveBits begun bits s = arrive { begun := begun, code := f.code, depot := f.depot } f.payload s := by rw [receiveBits, read]

theorem receiveBits_sending {begun : Nat} {bits : List Bool} {a : Attempt} {s : State} (sending : s.dli.attempt = some a) :
    receiveBits begun bits s = s := by
  unfold receiveBits
  split
  · exact arrive_sending sending
  · exact unlessSending_sending sending

theorem framerAfter_some {now : Nat} {bits rest : List Bool} (h : beyondFrame bits = some rest) :
    framerAfter now bits = max (idleAfter now bits) (now + 192 - 16 * rest.length) := by
  rw [framerAfter, h]
  rfl

theorem framerAfter_none {now : Nat} {bits : List Bool} (h : beyondFrame bits = none) :
    framerAfter now bits = idleAfter now bits := by rw [framerAfter, h]

theorem event_same {t : Nat} {f : State → State} {s : State} (work : f (elapse t s) = elapse t s) : event t f s = elapse t s :=
  (event_eq work).trans (finish_quiet rfl rfl)

/-! ## The start of an attempt (R149) -/

/-- The first of a list for which a test holds is the one whose place comes before every other for which it holds. -/
theorem find?_of_first {α : Type} [DecidableEq α] {p : α → Bool} {l : List α} {a : α} (mem : a ∈ l) (holds : p a = true)
    (first : ∀ b, p b = true → l.idxOf a ≤ l.idxOf b) : l.find? p = some a := by
  induction l with
  | nil => cases mem
  | cons x xs ih =>
    by_cases hx : p x = true
    · have : (x :: xs).idxOf a = 0 := Nat.le_zero.1 ((first x hx).trans (by simp))
      have same : x = a := by
        by_contra other
        rw [List.idxOf_cons_ne _ other] at this
        omega
      rw [List.find?_cons_of_pos hx, same]
    · have other : ∀ b, p b = true → x ≠ b := fun b hb eq => hx (eq ▸ hb)
      rw [List.find?_cons_of_neg hx]
      refine ih ((List.mem_cons.1 mem).resolve_left (other a holds).symm) fun b hb => ?_
      have := first b hb
      rw [List.idxOf_cons_ne _ (other a holds), List.idxOf_cons_ne _ (other b hb)] at this
      omega

theorem nextKind_eq (op : OpState) (q : TxQueue) :
    nextKind op q = priorityOrder.find? (fun k => (q.get k).isSome && sends op k) := by
  rw [nextKind, TxQueue.kinds, List.find?_filter]
  simp only [Bool.decide_and, Bool.decide_eq_true]

theorem nextKind_first {op : OpState} {q : TxQueue} {k : FrameKind} (queued : (q.get k).isSome = true) (sent : sends op k = true)
    (first : ∀ j, (q.get j).isSome = true → sends op j = true → priorityOrder.idxOf k ≤ priorityOrder.idxOf j) :
    nextKind op q = some k := by
  rw [nextKind_eq]
  refine find?_of_first (by cases k <;> decide) (by rw [queued, sent]; rfl) fun j hj => ?_
  rw [Bool.and_eq_true] at hj
  exact first j hj.1 hj.2

theorem nextKind_none {op : OpState} {q : TxQueue} (nothing : ∀ k, q.get k = none ∨ sends op k = false) : nextKind op q = none := by
  rw [nextKind_eq, List.find?_eq_none]
  intro k _
  rcases nothing k with h | h <;> simp [h]

theorem attemptKind_eq {recessive : Nat} {s : State} (free : s.dli.attempt = none) (rested : s.dli.backoff = none)
    (gap : s.dli.gapFrom ≤ s.now) (idle : recessive + 192 ≤ s.now) : attemptKind recessive s = nextKind s.stc.op s.dli.queue := by
  rw [attemptKind, free, rested]
  exact if_pos (decide_eq_true ⟨gap, idle⟩)

/-- Nothing starts while an attempt or a backoff runs, before the gap is complete, or with nothing to send (R149). -/
theorem attemptKind_none {recessive : Nat} {s : State}
    (h : s.now < recessive + 192 ∨ s.now < s.dli.gapFrom ∨ s.dli.attempt ≠ none ∨ s.dli.backoff ≠ none ∨
      ∀ k, s.dli.queue.get k = none ∨ sends s.stc.op k = false) : attemptKind recessive s = none := by
  unfold attemptKind
  split
  · next may =>
    simp only [Bool.and_eq_true, Option.isNone_iff_eq_none] at may
    obtain ⟨⟨free, rested⟩, complete⟩ := may
    have line : s.dli.gapFrom ≤ s.now ∧ recessive + 192 ≤ s.now := of_decide_eq_true complete
    rcases h with h | h | h | h | h
    · omega
    · omega
    · exact absurd free h
    · exact absurd rested h
    · exact nextKind_none h
  · rfl

/-- The payload of an attempt: an ANNOUNCE built from the figures of the moment, and any other kind's as queued (R44, R145). -/
theorem payloadFor_queued {k : FrameKind} {e : TxEntry} {s : State} (queued : s.dli.queue.get k = some e) :
    payloadFor k s = if k = .announce then .announce (ownFigures s) else e.content.payload := by
  cases k <;> simp only [payloadFor, queued] <;> rfl

/-- Settles O49: the line's marks, the arrival of a sound reading, the attempt that starts, and the backoff's end. -/
theorem lineTimersTaken : Obligations.LineTimersTaken := by
  intro t s s0
  refine ⟨fun begun bits unread free => ?_, fun begun bits a sending => ?_, fun begun bits f read => ?_,
    fun k e recessive free rested gap idle queued sent first => ?_, fun recessive waits => ?_, fun m runs passed => ?_⟩
  · intro gap
    have run : exec (.receiveDiscard t begun bits) s = .next (lineIdle (idleAfter s0.now bits) (framerAfter s0.now bits) s0) :=
      congrArg Host.Outcome.next ((event_eq (receiveBits_none unread free)).trans (finish_quiet rfl rfl))
    clear_value s0
    refine ⟨fun rest beyond => ?_, fun beyond => ?_⟩
    · rw [run, framerAfter_some beyond]
      rfl
    · rw [run, framerAfter_none beyond]
      rfl
  · exact congrArg Host.Outcome.next (event_same (receiveBits_sending sending))
  · rw [exec_arrivalOf]
    refine congrArg Host.Outcome.next ?_
    rw [event, event, receiveBits_some read]
  · intro figures f
    have kind : attemptKind recessive s0 = some k := by
      rw [attemptKind_eq free rested gap idle]
      exact nextKind_first (by rw [queued]; rfl) sent first
    have work : attemptStarts recessive s0 = { s0 with dli := s0.dli.startAttempt s0.now k (frameFor k s0) } := by
      rw [attemptStarts, kind]
    have run : exec (.attemptStart ⟨t, recessive⟩) s = .next { s0 with dli := s0.dli.startAttempt s0.now k (frameFor k s0) } :=
      congrArg Host.Outcome.next ((event_eq work).trans (finish_quiet rfl rfl))
    clear_value s0
    have frame : frameFor k s0 = f := by rw [frameFor, payloadFor_queued queued]; rfl
    rw [run, frame]
    rfl
  · have work : attemptStarts recessive s0 = s0 := by rw [attemptStarts, attemptKind_none waits]
    exact congrArg Host.Outcome.next (event_same work)
  · have work : backoffEnds s0 = { s0 with dli := { s0.dli with backoff := none } } := by
      rw [backoffEnds, runs]
      exact if_pos (decide_eq_true passed)
    exact congrArg Host.Outcome.next ((event_eq work).trans (finish_quiet rfl rfl))

/-! ## A failed attempt (R152, R153) -/

theorem failed_counts {now : Nat} {a : Attempt} {d : Dli} (stays : dropsOn a d = false) : d.failed now a = { d with
    queue := d.queue.set a.kind ((d.queue.get a.kind).map (TxEntry.afterFailure a)), attempt := none
    gapFrom := idleAfter now (a.readBack now), framerFrom := min d.framerFrom (a.ends - 16 * a.frame.lineBits.length)
    sequence := sequenceDraw d.sequence, backoff := some (now + 256 * ((sequenceDraw d.sequence).toNat % 32)) } := by
  rw [Dli.failed, stays]
  rfl

theorem failed_drops {now : Nat} {a : Attempt} {d : Dli} (drops : dropsOn a d = true) : d.failed now a = { d with
    queue := d.queue.set a.kind none, attempt := none
    gapFrom := idleAfter now (a.readBack now), framerFrom := min d.framerFrom (a.ends - 16 * a.frame.lineBits.length)
    sequence := sequenceDraw d.sequence, backoff := some (now + 256 * ((sequenceDraw d.sequence).toNat % 32))
    dropKind := some a.kind, dropCount := min (d.dropCount + 1) 65535 } := by
  rw [Dli.failed, drops]
  rfl

theorem dropsOn_eq {a : Attempt} {d : Dli} {e : TxEntry} (queued : d.queue.get a.kind = some e) :
    dropsOn a d = decide (4 ≤ (e.afterFailure a).failed) := by
  rw [dropsOn, queued]
  rfl

theorem attemptFails_stays {a : Attempt} {s : State} (sending : s.dli.attempt = some a) (stays : dropsOn a s.dli = false) :
    attemptFails s = { s with dli := s.dli.failed s.now a } := by
  rw [attemptFails, sending]
  exact if_neg (by rw [stays]; decide)

theorem attemptFails_drops {a : Attempt} {s : State} (sending : s.dli.attempt = some a) (drops : dropsOn a s.dli = true) :
    attemptFails s = dropTold a.kind (post .frameDropped { s with dli := s.dli.failed s.now a }) := by
  rw [attemptFails, sending]
  exact if_pos drops

theorem set_get (q : TxQueue) (k : FrameKind) : q.set k (q.get k) = q := by cases k <;> rfl

/-- A failed attempt that drops nothing: the count of its entry, and the backoff (R147, R152, R153). -/
theorem exec_attemptFailed_stays {t : Nat} {a : Attempt} {s : State} {q : TxQueue} (sending : (elapse t s).dli.attempt = some a)
    (stays : dropsOn a (elapse t s).dli = false) (queue : (elapse t s).dli.queue.set a.kind
      (((elapse t s).dli.queue.get a.kind).map (TxEntry.afterFailure a)) = q) :
    exec (.attemptFailed t) s = .next { elapse t s with dli := { (elapse t s).dli with
      queue := q, attempt := none, gapFrom := idleAfter (elapse t s).now (a.readBack (elapse t s).now)
      sequence := sequenceDraw (elapse t s).dli.sequence
      framerFrom := min (elapse t s).dli.framerFrom (a.ends - 16 * a.frame.lineBits.length)
      backoff := some ((elapse t s).now + 256 * ((sequenceDraw (elapse t s).dli.sequence).toNat % 32)) } } := by
  subst queue
  refine congrArg Host.Outcome.next ((event_eq (attemptFails_stays sending stays)).trans ?_)
  rw [failed_counts stays]
  exact finish_quiet rfl rfl

theorem queueFrame_attempt {op : OpState} {k : FrameKind} {c : TxContent} {d : Dli} (free : d.attempt = none) :
    (d.queueFrame op k c).attempt = none := by
  unfold Dli.queueFrame
  repeat' split
  all_goals simp [free]

/-- An ANNOUNCE queued or not, the other kinds' entries and the moments and marks of the line stand. -/
theorem announced_marks {op : OpState} {d e : Dli} (h : e = d ∨ e = d.queueFrame op .announce .none) (free : d.attempt = none) :
    (∀ k, k ≠ .announce → e.queue.get k = d.queue.get k) ∧ e.announce = d.announce ∧ e.sequence = d.sequence ∧
      e.backoff = d.backoff ∧ e.gapFrom = d.gapFrom ∧ e.framerFrom = d.framerFrom ∧ e.framerUntil = d.framerUntil ∧
      e.dropKind = d.dropKind ∧ e.dropCount = d.dropCount ∧ e.attempt = none := by
  rcases h with rfl | rfl
  · exact ⟨fun _ _ => rfl, rfl, rfl, rfl, rfl, rfl, rfl, rfl, rfl, free⟩
  · obtain ⟨announce, sequence, backoff, gap, framer, until_, kind, count⟩ := queueFrame_times op .announce .none d
    exact ⟨fun _ hk => queueFrame_others _ _ _ _ _ hk, announce, sequence, backoff, gap, framer, until_, kind, count,
      queueFrame_attempt free⟩

/-- Emptying the table in HALTED queues no ANNOUNCE where limit and intent are 0 already and no hold runs (R37, R40). -/
theorem settleTable_dli_still {s : State} (op : s.stc.op ≠ .session) (limit : s.shu.limit = 0) (intent : s.shu.intent = 0)
    (steady : s.shu.hold = .steady) : (settleTable s).dli = s.dli := by
  have cause : s.grantInputs.cause = .noSession := by simp [GrantInputs.cause, State.grantInputs, op]
  have grant : (computeGrant s.grantInputs).grant = 0 := by simp [computeGrant, cause]
  have same : Shu.applyGrant { s.shu with record := computeGrant s.grantInputs } =
      { s.shu with record := computeGrant s.grantInputs } := by simp [Shu.applyGrant, grant, limit, intent]
  rw [settleTable_dli, same]
  simp [Shu.grantMoves, holdComplete, grant, limit, intent, steady]

/-- What the owner does about a drop leaves everything but the epoch, the shares and the table (R152). -/
theorem dropTold_kept {k : FrameKind} (x : State) :
    let y := dropTold k x
    (y.dli = x.dli ∨ y.dli = x.dli.queueFrame x.stc.op .announce .none) ∧ RestKept x y ∧ y.vlk = x.vlk ∧ y.epi = x.epi ∧
      y.flt = x.flt := by
  have empties : let y := emptyIfDone x
      (y.dli = x.dli ∨ y.dli = x.dli.queueFrame x.stc.op .announce .none) ∧ RestKept x y ∧ y.vlk = x.vlk ∧ y.epi = x.epi ∧
        y.flt = x.flt := by
    intro y
    simp only [y, emptyIfDone]
    split
    · refine ⟨?_, by simp [RestKept], by simp, by simp, by simp⟩
      rw [settleTable_dli]
      split
      · exact .inr rfl
      · exact .inl rfl
    · exact ⟨.inl rfl, ⟨rfl, rfl, rfl, rfl, rfl, rfl, rfl, rfl⟩, rfl, rfl, rfl⟩
  cases k with
  | claim => exact empties
  | leave => exact empties
  | announce => exact ⟨.inl rfl, ⟨rfl, rfl, rfl, rfl, rfl, rfl, rfl, rfl⟩, rfl, rfl, rfl⟩
  | finding => exact ⟨.inl rfl, ⟨rfl, rfl, rfl, rfl, rfl, rfl, rfl, rfl⟩, rfl, rfl, rfl⟩
  | epoch =>
    simp only [dropTold, epochDropped]
    repeat' split
    all_goals exact ⟨.inl rfl, ⟨rfl, rfl, rfl, rfl, rfl, rfl, rfl, rfl⟩, rfl, rfl, rfl⟩

theorem epochDropped_gives_up {s : State}
    (own : s.ins.epochState = .pending ∨ s.ins.epochState = .injecting ∧ s.ins.resend = true) :
    (epochDropped s).ins = s.ins.goIdle.startTimer s.now s.cfg := by
  rcases own with state | ⟨state, resend⟩
  · simp only [epochDropped, state]
    rfl
  · simp only [epochDropped, state, resend]
    rfl

theorem epochDropped_window {s : State} (state : s.ins.epochState = .injecting) (resend : s.ins.resend = true) :
    (epochDropped s).htr.window = false := by
  simp only [epochDropped, state, resend]
  rfl

theorem epochDropped_keeps {s : State} (other : s.ins.epochState = .idle ∨ s.ins.epochState = .observing ∨
    s.ins.epochState = .injecting ∧ s.ins.resend = false) : epochDropped s = s := by
  rcases other with state | state | ⟨state, resend⟩
  · simp only [epochDropped, state]
  · simp only [epochDropped, state]
  · simp [epochDropped, state, resend]

theorem dropTold_ins {k : FrameKind} (other : k ≠ .epoch) (s : State) : (dropTold k s).ins = s.ins := by
  have empties : (emptyIfDone s).ins = s.ins := by
    unfold emptyIfDone
    split <;> simp
  cases k with
  | epoch => exact absurd rfl other
  | claim => exact empties
  | leave => exact empties
  | announce => rfl
  | finding => rfl

/-- Only a dropped CLAIM or LEAVE in HALTED, with neither queued any more, touches the table and the shares (R17). -/
theorem dropTold_shares {k : FrameKind} {s : State} (not_done : ¬ ((k = .claim ∨ k = .leave) ∧ s.stc.op = .halted ∧
    s.dli.queue.claim = none ∧ s.dli.queue.leave = none)) : let y := dropTold k s
      y.ptb = s.ptb ∧ y.shu = s.shu ∧ y.dmu = s.dmu ∧ y.dli = s.dli := by
  intro y
  cases k with
  | announce => exact ⟨rfl, rfl, rfl, rfl⟩
  | finding => exact ⟨rfl, rfl, rfl, rfl⟩
  | epoch =>
    simp only [y, dropTold, epochDropped]
    repeat' split
    all_goals exact ⟨rfl, rfl, rfl, rfl⟩
  | claim =>
    have same : y = s := if_neg fun h => not_done ⟨.inl rfl, h⟩
    rw [same]
    exact ⟨rfl, rfl, rfl, rfl⟩
  | leave =>
    have same : y = s := if_neg fun h => not_done ⟨.inr rfl, h⟩
    rw [same]
    exact ⟨rfl, rfl, rfl, rfl⟩

theorem dropTold_empties {k : FrameKind} {s : State} (kind : k = .claim ∨ k = .leave) (done : s.stc.op = .halted ∧
    s.dli.queue.claim = none ∧ s.dli.queue.leave = none) : dropTold k s = settleTable (emptyTable s) := by
  rcases kind with rfl | rfl <;> exact if_pos done

/-- Settles O51: a count that goes on, or a drop told to its owner. -/
theorem attemptFailedTaken : Obligations.AttemptFailedTaken := by
  intro t a s s0 sending r after
  refine ⟨fun kind clear => ?_, fun e other queued refreshed => ?_, fun e other queued plain few => ?_,
    fun e other queued plain many => ?_⟩
  · have same : s0.dli.queue.set a.kind ((s0.dli.queue.get a.kind).map (TxEntry.afterFailure a)) = s0.dli.queue := by
      have unchanged : TxEntry.afterFailure a = id := funext fun e => if_pos kind
      rw [unchanged, Option.map_id_fun, id, set_get]
    have stays : dropsOn a s0.dli = false := by
      cases queued : s0.dli.queue.get a.kind with
      | none => rw [dropsOn, queued]
      | some e =>
        have zero : e.failed = 0 := clear e (by rw [← queued, kind]; rfl)
        rw [dropsOn_eq queued, TxEntry.afterFailure, if_pos kind, zero]
        rfl
    exact exec_attemptFailed_stays sending stays same
  · have count : e.afterFailure a = { e with failed := 0 } := by rw [TxEntry.afterFailure, if_neg other, if_pos refreshed]
    exact exec_attemptFailed_stays sending (by rw [dropsOn_eq queued, count]; rfl) (by rw [queued, Option.map_some, count])
  · have count : e.afterFailure a = { e with failed := e.failed + 1 } := by
      rw [TxEntry.afterFailure, if_neg other, if_neg (by rw [plain]; decide)]
    exact exec_attemptFailed_stays sending (by rw [dropsOn_eq queued, count]; exact decide_eq_false (by simpa using few))
      (by rw [queued, Option.map_some, count])
  · have count : e.afterFailure a = { e with failed := e.failed + 1 } := by
      rw [TxEntry.afterFailure, if_neg other, if_neg (by rw [plain]; decide)]
    have drops : dropsOn a s0.dli = true := by
      rw [dropsOn_eq queued, count]
      exact decide_eq_true (by simpa using many)
    have run : exec (.attemptFailed t) s =
        .next (finish false s0 (dropTold a.kind (post .frameDropped { s0 with dli := s0.dli.failed s0.now a }))) :=
      congrArg Host.Outcome.next (event_eq (attemptFails_drops sending drops))
    rw [failed_drops drops] at run
    clear_value s0
    let x : State := post .frameDropped { s0 with dli := { s0.dli with
      queue := s0.dli.queue.set a.kind none, attempt := none
      gapFrom := idleAfter s0.now (a.readBack s0.now)
      framerFrom := min s0.dli.framerFrom (a.ends - 16 * a.frame.lineBits.length)
      sequence := sequenceDraw s0.dli.sequence
      backoff := some (s0.now + 256 * ((sequenceDraw s0.dli.sequence).toNat % 32))
      dropKind := some a.kind, dropCount := min (s0.dli.dropCount + 1) 65535 } }
    obtain ⟨dli, kept, vlk, epi, flt⟩ := dropTold_kept (k := a.kind) x
    have queue : x.dli.queue = s0.dli.queue.set a.kind none := rfl
    obtain ⟨others, announce, sequence, backoff, gap, framer, until_, kind, number, attempt⟩ := announced_marks dli rfl
    have claim : (dropTold a.kind x).dli.queue.claim = x.dli.queue.claim := others .claim (by decide)
    have leave : (dropTold a.kind x).dli.queue.leave = x.dli.queue.leave := others .leave (by decide)
    refine ⟨_, run, ?_, kind, fun k hk ha => ?_, gap, announce, number, attempt, sequence, backoff, framer, until_, kept, vlk, epi,
      flt, fun kind own => ?_, fun kind state resend => ?_, fun kind none => ?_, fun kind => dropTold_ins kind x, ?_⟩
    · exact (others a.kind other).trans (by rw [queue, TxQueue.get_set, if_pos rfl])
    · exact (others k ha).trans (by rw [queue, TxQueue.get_set, if_neg hk])
    · have gives : (dropTold a.kind x).ins = s0.ins.goIdle.startTimer s0.now s0.cfg := by
        rw [kind]
        exact epochDropped_gives_up (s := x) own
      exact ⟨(congrArg Ins.epochState gives :), (congrArg Ins.source gives :), (congrArg Ins.cycleRecord gives :),
        (congrArg Ins.busTrack gives :), (congrArg Ins.resend gives :), (congrArg Ins.branchRecord gives :),
        (congrArg Ins.epochTimer gives :)⟩
    · rw [(finish_kept _ _ _).2.1]
      exact (congrArg (fun k => (dropTold k x).htr.window) kind).trans (epochDropped_window (s := x) state resend)
    · have same : (epochDropped x).ins = s0.ins := by rw [epochDropped_keeps (s := x) none]; rfl
      exact (congrArg (fun k => (dropTold k x).ins) kind).trans same
    · intro done
      have done_iff : done ↔ (a.kind = .claim ∨ a.kind = .leave) ∧ x.stc.op = .halted ∧ x.dli.queue.claim = none ∧
          x.dli.queue.leave = none := by
        rw [← claim, ← leave]
        exact Iff.rfl
      refine ⟨fun isDone => ?_, fun still => ?_, fun not_done => ?_⟩
      · obtain ⟨kind, empty⟩ := done_iff.1 isDone
        show (dropTold a.kind x).ptb = _
        rw [dropTold_empties kind empty]
        simp [emptyTable, x]
      · by_cases isDone : done
        · obtain ⟨kind, empty⟩ := done_iff.1 isDone
          obtain ⟨limit, intent, hold⟩ := still.resolve_left (not_not.2 isDone)
          show (dropTold a.kind x).dli.queue.announce = _
          rw [dropTold_empties kind empty, settleTable_dli_still (s := emptyTable x)
            (by show x.stc.op ≠ .session; rw [empty.1]; decide) limit intent hold]
          exact (TxQueue.get_set s0.dli.queue a.kind .announce none).trans (if_neg (Ne.symm other))
        · show (dropTold a.kind x).dli.queue.announce = _
          rw [(dropTold_shares (mt done_iff.2 isDone)).2.2.2]
          exact (TxQueue.get_set s0.dli.queue a.kind .announce none).trans (if_neg (Ne.symm other))
      · obtain ⟨ptb, shu, dmu, -⟩ := dropTold_shares (mt done_iff.2 not_done)
        exact ⟨ptb, shu, dmu⟩

end Sys2Proof.Proofs
end

section
/-! PROOF. The Insulation Unit's episode: what a halt leaves (R102, R113, R163), the own claim (R107), and the evaluation of an adopted
finding by the table of R106. -/

namespace Sys2Proof.Proofs
open Sys2Proof.Machine

/-! ## What stays, and what a halt leaves -/

/-- The peer table is as it was, the claimant marks of its entries aside. -/
structure TableKept (s q : State) : Prop where
  entries : SameEntries q.ptb.entries s.ptb.entries
  unlisted : q.ptb.unlisted = s.ptb.unlisted
  feeder : q.ptb.feeder = s.ptb.feeder
  mismatch : q.ptb.mismatch = s.ptb.mismatch

/-- Settings, trim, moment and queue are as they were. -/
structure FrameKept (s q : State) : Prop where
  cfg : q.cfg = s.cfg
  trm : q.trm = s.trm
  now : q.now = s.now
  pending : q.pending = s.pending

/-- An event of the episode that moves no station: shares, demand, heater, line, meter, sessions and epoch work are as they were. -/
structure Untouched (s q : State) : Prop extends TableKept s q, FrameKept s q where
  stc : q.stc = s.stc
  shu : q.shu = s.shu
  dmu : q.dmu = s.dmu
  htr : q.htr = s.htr
  dli : q.dli = s.dli
  ins : q.ins = s.ins
  mtr : q.mtr = s.mtr
  ses : q.ses = s.ses

/-- A stop-class fault on the line has halted the station (R102, R113, R161, R163), with this entry of CLAIM in the queue. -/
structure HaltedFrom (claim : Option TxEntry) (s q : State) : Prop extends TableKept s q, FrameKept s q where
  op : q.stc.op = .halted
  contactor : s.stc.op = .session ∨ s.stc.contactor = false → q.stc.contactor = false
  marks : MarksAgree q
  fault : q.vlk.marks.fault = true
  leave : q.dli.queue.leave = some { content := .none, failed := 0 }
  claim : q.dli.queue.claim = claim
  finding : q.dli.queue.finding = s.dli.queue.finding
  ins : q.ins = if s.stc.op = .session then s.ins.leaveSession else s.ins
  limit : q.shu.limit = 0
  intent : q.shu.intent = 0
  window : s.stc.op = .session → q.htr.window = false
  epoch : s.stc.op = .session → q.dli.queue.epoch = none

theorem sameEntries_marked (cs : List Claimant) (es : List PeerEntry) :
    SameEntries (es.map (fun e => { e with claimant := isMember e.code cs })) es := by
  rw [SameEntries, List.map_map]
  rfl

theorem SameEntries.trans {es fs gs : List PeerEntry} (h : SameEntries es fs) (k : SameEntries fs gs) : SameEntries es gs :=
  Eq.trans h k

theorem marksAgree_marked {s : State} {es : List PeerEntry}
    (h : s.ptb.entries = es.map (fun e => { e with claimant := isMember e.code s.epi.claimants })) : MarksAgree s := by
  intro e he
  rw [h, List.mem_map] at he
  obtain ⟨e, -, rfl⟩ := he
  rfl

theorem Untouched.refl (s : State) : Untouched s s :=
  ⟨⟨rfl, rfl, rfl, rfl⟩, ⟨rfl, rfl, rfl, rfl⟩, rfl, rfl, rfl, rfl, rfl, rfl, rfl, rfl⟩

theorem halt_session (c : FaultCode) {s : State} (op : s.stc.op = .session) : halt c s = enterHalted (depart .fault (some c) .halted s) := by
  simp only [halt, op]

theorem depart_window (reason : CloseReason) (code : Option FaultCode) (dest : OpState) (s : State) :
    (depart reason code dest s).htr.window = false := by
  show (regrant (departing reason code dest s)).htr.window = false
  rw [regrant_htr]
  rfl

/-- A stop-class fault raised on the line halts the station. -/
theorem raise_haltedFrom {c : FaultCode} (d : FaultDetail) {s : State} (stop : isStop s.cfg.policies c = true)
    (takes : s.stc.op.takesFrames = true) : HaltedFrom s.dli.queue.claim s (raise c d s) := by
  obtain ⟨op, limit, intent, epi, -, leave, others, ptb, fault, -, -, -, -⟩ := raise_halts d stop takes
  obtain ⟨-, -, -, -, -, -, -, -, -, -, session, other⟩ := halt_spec c (recordFault c d s) takes
  rw [← raise_stop d stop] at session other
  have tables : (raise c d s).ptb.entries =
      s.ptb.entries.map (fun e => { e with claimant := isMember e.code (raise c d s).epi.claimants }) := by rw [ptb, epi]
  exact {
    entries := by rw [tables]; exact sameEntries_marked _ _
    unlisted := by rw [ptb]
    feeder := by rw [ptb]
    mismatch := by rw [ptb]
    cfg := raise_cfg _ _ _
    trm := raise_trm _ _ _
    now := raise_now _ _ _
    pending := raise_pending _ _ _
    op := op
    contactor := fun open_ => by
      by_cases hs : s.stc.op = .session
      · exact (session hs).2
      · exact (other hs).2.trans (open_.resolve_left hs)
    marks := marksAgree_marked tables
    fault := fault
    leave := leave
    claim := others .claim (by decide) (by decide) (by decide)
    finding := others .finding (by decide) (by decide) (by decide)
    ins := by
      by_cases hs : s.stc.op = .session
      · rw [if_pos hs]
        exact (session hs).1
      · rw [if_neg hs]
        exact (other hs).1
    limit := limit
    intent := intent
    window := fun hs => by
      rw [raise_stop d stop, halt_session c (s := recordFault c d s) hs, enterHalted_htr, depart_window]
    epoch := fun hs => by
      obtain ⟨stc, -, -, -, -, -, -, -, -, -, -, withdrawn, -⟩ :=
        depart_spec .fault (some c) .halted (recordFault c d s) (by decide)
      obtain ⟨-, -, -, kept, -⟩ := enterHalted_spec (depart .fault (some c) .halted (recordFault c d s)) (by rw [stc]; exact fun h => nomatch h)
      rw [raise_stop d stop, halt_session c (s := recordFault c d s) hs]
      exact (kept .epoch (by decide)).trans withdrawn }

/-- A further fault of a halted station is recorded and nothing else (R163, R165). -/
theorem raise_again {claim : Option TxEntry} (c : FaultCode) (d : FaultDetail) {s q : State} (h : HaltedFrom claim s q) :
    HaltedFrom claim s (raise c d q) ∧ raise c d q = recordFault c d q := by
  have recorded : raise c d q = recordFault c d q := by
    rw [raise]
    split
    · exact halt_off (s := recordFault c d q) (by show q.stc.op.takesFrames = false; rw [h.op]; rfl)
    · rfl
  rw [recorded]
  exact ⟨{ h with fault := rfl }, rfl⟩

theorem moveTo_traceFrozen {op : OpState} {s : State} (h : op ≠ .session) :
    (moveTo op s).vlk.marks.traceFrozen = s.vlk.marks.traceFrozen := by
  obtain ⟨-, -, -, -, -, -, vlk, -⟩ := moveTo_spec op s h
  exact (congrArg (fun v => v.marks.traceFrozen) vlk :)

theorem abandonSlot_marks (s : State) : (abandonSlot s).vlk.marks = s.vlk.marks := by
  unfold abandonSlot endCalibrate
  repeat' split
  all_goals rfl

theorem depart_traceFrozen {reason : CloseReason} {code : Option FaultCode} {dest : OpState} {s : State} (h : dest ≠ .session) :
    (depart reason code dest s).vlk.marks.traceFrozen = s.vlk.marks.traceFrozen := by
  obtain ⟨-, -, -, -, -, -, -, -, -, -, vlk, -⟩ := depart_spec reason code dest s h
  have marks := congrArg Vlk.marks vlk
  rw [closeSession_fault] at marks
  exact (congrArg Marks.traceFrozen marks :)

/-- A fault leaves the mark of the frozen trace as it is. -/
theorem raise_traceFrozen (c : FaultCode) (d : FaultDetail) (s : State) :
    (raise c d s).vlk.marks.traceFrozen = s.vlk.marks.traceFrozen := by
  have halts : ∀ x : State, (halt c x).vlk.marks.traceFrozen = x.vlk.marks.traceFrozen := by
    intro x
    unfold halt
    split
    · rw [enterHalted_vlk, depart_traceFrozen (by decide)]
    · rw [enterHalted_vlk, moveTo_traceFrozen (by decide), abandonSlot_marks]
    · rw [enterHalted_vlk, moveTo_traceFrozen (by decide)]
    · rfl
  rw [raise]
  split
  · rw [halts]
    rfl
  · rfl

/-- A fault leaves the station clock as it is. -/
theorem raise_clock (c : FaultCode) (d : FaultDetail) (s : State) : clock (raise c d s) = clock s := by
  have of_stc : ∀ {x y : State}, x.stc.clockSet = y.stc.clockSet → x.stc.clockMicros = y.stc.clockMicros → clock x = clock y := by
    intro x y set_ micros
    rw [clock, clock, set_, micros]
  have halts : ∀ x : State, clock (halt c x) = clock x := by
    intro x
    unfold halt
    split
    · obtain ⟨stc, -⟩ := depart_spec .fault (some c) .halted x (by decide)
      refine of_stc ?_ ?_ <;> rw [enterHalted_stc, stc]
    · obtain ⟨stc, -⟩ := moveTo_spec .halted (abandonSlot x) (by decide)
      refine of_stc ?_ ?_ <;> rw [enterHalted_stc, stc, abandonSlot_stc]
    · obtain ⟨stc, -⟩ := moveTo_spec .halted x (by decide)
      refine of_stc ?_ ?_ <;> rw [enterHalted_stc, stc]
    · rfl
  rw [raise]
  split
  · rw [halts]
    rfl
  · rfl

/-! ## The double fault and the own claim (R107, R112) -/

/-- A double fault on the line (R112): its state, its entry, and the halt. -/
theorem enterDouble_spec {detail : Nat} {s : State} (takes : s.stc.op.takesFrames = true) : let q := enterDouble detail s
    HaltedFrom s.dli.queue.claim s q ∧ q.epi = { s.epi with state := .doubleFault, window := none } ∧
      q.flt = faultAdded { time := clock s, code := .insDouble, detail := .number detail, state := s.stc.op } s.flt ∧
      q.trc = s.trc ∧ q.vlk.marks.traceFrozen = s.vlk.marks.traceFrozen := by
  intro q
  have halted := raise_haltedFrom (c := .insDouble) (.number detail) (s := setEpisode .doubleFault s) rfl takes
  exact ⟨{ halted with }, raise_epi_latched (s := setEpisode .doubleFault s) _ (.inr (.inr rfl)) rfl,
    (faultRaised_raise .insDouble _ (setEpisode .doubleFault s)).1, raise_trc _ _ _, raise_traceFrozen _ _ _⟩

/-- The claimant set with the own claim joined (R107). -/
def ownJoined (epoch rb : Nat) (s : State) : List Claimant :=
  joinClaimant { code := s.cfg.stationCode, epoch := epoch, rb := rb, departed := false } s.epi.claimants

/-- The own claim queued and joined, with the state that follows (R107 steps 1 to 3). -/
def claiming (e : EpisodeState) (epoch rb : Nat) (s : State) : State :=
  setEpisode e (setClaimants (ownJoined epoch rb s) (queueFrame .claim (.claim epoch rb) s))

theorem claimOwn_local {epoch rb : Nat} {s : State} (waits : s.epi.state = .claimWait) (alone : (ownJoined epoch rb s).length = 1) :
    claimOwn epoch rb s = raise .insLocal (.number rb) (claiming .localFault epoch rb s) := if_pos ⟨waits, alone⟩

theorem claimOwn_double {epoch rb : Nat} {s : State} (h : ¬ (s.epi.state = .claimWait ∧ (ownJoined epoch rb s).length = 1)) :
    claimOwn epoch rb s =
      raise .insDouble (.number rb) (raise .insLocal (.number rb) (claiming .doubleFault epoch rb s)) := if_neg h

theorem claiming_claim {e : EpisodeState} {epoch rb : Nat} {s : State} (op : s.stc.op = .session) :
    (claiming e epoch rb s).dli.queue.claim = some { content := .claim epoch rb, failed := 0 } :=
  queueFrame_queued s.stc.op .claim _ s.dli (by rw [op]; decide) (by decide)

theorem claiming_finding (e : EpisodeState) (epoch rb : Nat) (s : State) :
    (claiming e epoch rb s).dli.queue.finding = s.dli.queue.finding :=
  queueFrame_others s.stc.op .claim .finding _ s.dli (by decide)

theorem claiming_halts {e : EpisodeState} {epoch rb : Nat} {s : State} (op : s.stc.op = .session) :
    HaltedFrom (some { content := .claim epoch rb, failed := 0 }) s (raise .insLocal (.number rb) (claiming e epoch rb s)) := by
  have halted := raise_haltedFrom (c := .insLocal) (.number rb) (s := claiming e epoch rb s) rfl
    (by show s.stc.op.takesFrames = true; rw [op]; rfl)
  exact { halted with
    entries := halted.entries.trans (sameEntries_marked _ _)
    claim := halted.claim.trans (claiming_claim op)
    finding := halted.finding.trans (claiming_finding e epoch rb s) }

/-- The station's own claim (R107, R112): the halt with CLAIM queued, the faults and the new state. -/
theorem claimOwn_spec {epoch rb : Nat} {s : State} (op : s.stc.op = .session) : let q := claimOwn epoch rb s
    let entry := fun (c : FaultCode) (o : OpState) =>
      ({ time := clock s, code := c, detail := .number rb, state := o } : FaultEntry)
    HaltedFrom (some { content := .claim epoch rb, failed := 0 }) s q ∧ q.trc = s.trc ∧
      q.vlk.marks.traceFrozen = s.vlk.marks.traceFrozen ∧
      (s.epi.state = .claimWait → (ownJoined epoch rb s).length = 1 → q.flt = faultAdded (entry .insLocal .session) s.flt ∧
        q.epi = { state := .localFault, claimants := ownJoined epoch rb s, window := none, onset := s.epi.onset }) ∧
      (s.epi.state ≠ .claimWait ∨ (ownJoined epoch rb s).length ≠ 1 →
        q.flt = faultAdded (entry .insDouble .halted) (faultAdded (entry .insLocal .session) s.flt) ∧
        q.epi = { state := .doubleFault, claimants := ownJoined epoch rb s, window := none, onset := s.epi.onset }) := by
  intro q entry
  by_cases alone : s.epi.state = .claimWait ∧ (ownJoined epoch rb s).length = 1
  · have eq : q = raise .insLocal (.number rb) (claiming .localFault epoch rb s) := claimOwn_local alone.1 alone.2
    have flt := (faultRaised_raise .insLocal (.number rb) (claiming .localFault epoch rb s)).1
    rw [show (claiming .localFault epoch rb s).stc.op = .session from op] at flt
    rw [eq]
    refine ⟨claiming_halts op, raise_trc _ _ _, raise_traceFrozen _ _ _, fun _ _ => ⟨flt, ?_⟩, fun not_alone => ?_⟩
    · exact raise_epi_latched (s := claiming .localFault epoch rb s) _ (.inl rfl) rfl
    · exact absurd alone (by rcases not_alone with h | h <;> simp [h])
  · have eq : q = raise .insDouble (.number rb) (raise .insLocal (.number rb) (claiming .doubleFault epoch rb s)) :=
      claimOwn_double alone
    have first := claiming_halts (e := .doubleFault) (epoch := epoch) (rb := rb) op
    have flt := (faultRaised_raise .insLocal (.number rb) (claiming .doubleFault epoch rb s)).1
    rw [show (claiming .doubleFault epoch rb s).stc.op = .session from op] at flt
    obtain ⟨halted, recorded⟩ := raise_again .insDouble (.number rb) first
    rw [eq]
    refine ⟨halted, ?_, ?_, fun waits one => absurd ⟨waits, one⟩ alone, fun _ => ⟨?_, ?_⟩⟩
    · rw [raise_trc, raise_trc]
      rfl
    · rw [raise_traceFrozen, raise_traceFrozen]
      rfl
    · rw [recorded, recordFault_flt, flt, first.op]
      rw [raise_clock]
      rfl
    · rw [recorded]
      exact raise_epi_latched (s := claiming .doubleFault epoch rb s) _ (.inr (.inr rfl)) rfl

/-! ## The evaluation of a finding (R104, R106) -/

theorem band_top {cfg : Settings} {r v : Nat} (alarm : cfg.alarm * v / 10000 ≤ r) (warn : cfg.warn * v / 10000 ≤ r) :
    findingBand cfg r v = .top := by
  rw [findingBand, thresholdK, thresholdK, if_neg (Nat.not_lt.2 alarm), if_neg (Nat.not_lt.2 warn)]

theorem band_middle {cfg : Settings} {r v : Nat} (alarm : cfg.alarm * v / 10000 ≤ r) (warn : r < cfg.warn * v / 10000) :
    findingBand cfg r v = .middle := by
  rw [findingBand, thresholdK, thresholdK, if_neg (Nat.not_lt.2 alarm)]
  exact if_pos warn

theorem band_alarm {cfg : Settings} {r v : Nat} (alarm : r < cfg.alarm * v / 10000) : findingBand cfg r v = .alarm := if_pos alarm

theorem band_not_alarm {cfg : Settings} {r v : Nat} (alarm : cfg.alarm * v / 10000 ≤ r) : findingBand cfg r v ≠ .alarm := by
  by_cases warn : cfg.warn * v / 10000 ≤ r
  · rw [band_top alarm warn]
    decide
  · rw [band_middle alarm (Nat.lt_of_not_le warn)]
    decide

/-- The own claim test (R107) finds this branch result below the alarm threshold. -/
def Claims (s : State) (branch : Option (Option Nat)) (alarmK : Nat) : Prop :=
  s.stc.op = .session ∧ ∃ rb, branch = some (some rb) ∧ rb < alarmK

theorem ownClaim_some {i : Ins} {op : OpState} {epoch measurer alarmK rb : Nat} (session : op = .session)
    (branch : i.branchFor epoch measurer = some (some rb)) (below : rb < alarmK) : ownClaim op i epoch measurer alarmK = some rb := by
  rw [ownClaim, if_pos session, branch]
  exact if_pos below

theorem ownClaim_none {s : State} {epoch measurer alarmK : Nat} (h : ¬ Claims s (s.ins.branchFor epoch measurer) alarmK) :
    ownClaim s.stc.op s.ins epoch measurer alarmK = none := by
  unfold ownClaim
  split
  · next session =>
    split
    · next rb branch => exact if_neg fun below => h ⟨session, rb, branch, below⟩
    · rfl
  · rfl

theorem claimOr_claims {other : State → State} {s : State} {epoch measurer alarmK rb : Nat} (session : s.stc.op = .session)
    (branch : s.ins.branchFor epoch measurer = some (some rb)) (below : rb < alarmK) :
    claimOr epoch measurer alarmK other s = claimOwn epoch rb s := by rw [claimOr, ownClaim_some session branch below]

theorem claimOr_other {other : State → State} {s : State} {epoch measurer alarmK : Nat}
    (h : ¬ Claims s (s.ins.branchFor epoch measurer) alarmK) : claimOr epoch measurer alarmK other s = other s := by
  rw [claimOr, ownClaim_none h]

/-- The state in which an onset makes its claim test (R107 steps 1 to 4). -/
def onsetBegun (epoch measurer r v : Nat) (s : State) : State :=
  let o : Onset := { epoch := epoch, measurer := measurer, r := r, voltage := v, warnK := thresholdK s.cfg.warn v,
                     alarmK := thresholdK s.cfg.alarm v }
  let s1 := setClaimants (pruneClaimants epoch s.epi.claimants) { s with epi := { s.epi with onset := some o } }
  freezeTrace { s1 with epi := { s1.epi with state := .claimWait, window := some (s1.now + 3 * s1.cfg.ta * 1000) } }

theorem onset_eq (epoch measurer r v : Nat) (s : State) : onset epoch measurer r v s =
    claimOr epoch measurer (thresholdK s.cfg.alarm v) (onsetDouble r) (onsetBegun epoch measurer r v s) := rfl

theorem freezeTrace_mark {s : State} (h : s.trc.frozen = false) : (freezeTrace s).vlk.marks.traceFrozen = true := by
  rw [freezeTrace, if_neg (by rw [h]; decide)]
  rfl

/-- The freezing of the trace touches the trace and its mark alone. -/
theorem freezeTrace_eq (s : State) : ∃ v, freezeTrace s = { s with trc := { s.trc with frozen := true }, vlk := v } := by
  refine ⟨(freezeTrace s).vlk, ?_⟩
  unfold freezeTrace
  split
  · next frozen => rw [← frozen]
  · rfl

/-- An onset begun moves the episode, its marks in the table, the trace and the trace's mark, and nothing else. -/
theorem onsetBegun_spec (epoch measurer r v : Nat) (s : State) : let q := onsetBegun epoch measurer r v s
    Untouched s q ∧ MarksAgree q ∧ q.flt = s.flt ∧ q.trc = { s.trc with frozen := true } ∧
      (s.trc.frozen = false → q.vlk.marks.traceFrozen = true) ∧
      q.epi = { state := .claimWait, claimants := s.epi.claimants.filter (fun c => decide (c.epoch = epoch))
                window := some (s.now + 3 * s.cfg.ta * 1000)
                onset := some { epoch := epoch, measurer := measurer, r := r, voltage := v, warnK := s.cfg.warn * v / 10000
                                alarmK := s.cfg.alarm * v / 10000 } } := by
  intro q
  have mark : s.trc.frozen = false → q.vlk.marks.traceFrozen = true := fun h => freezeTrace_mark h
  obtain ⟨vlk, eq⟩ := freezeTrace_eq { setClaimants (pruneClaimants epoch s.epi.claimants) { s with epi := { s.epi with
      onset := some { epoch := epoch, measurer := measurer, r := r, voltage := v, warnK := thresholdK s.cfg.warn v
                      alarmK := thresholdK s.cfg.alarm v } } } with
    epi := { state := .claimWait, claimants := pruneClaimants epoch s.epi.claimants
             window := some (s.now + 3 * s.cfg.ta * 1000)
             onset := some { epoch := epoch, measurer := measurer, r := r, voltage := v, warnK := thresholdK s.cfg.warn v
                             alarmK := thresholdK s.cfg.alarm v } } }
  change q = _ at eq
  clear_value q
  subst eq
  exact ⟨⟨⟨sameEntries_marked _ _, rfl, rfl, rfl⟩, ⟨rfl, rfl, rfl, rfl⟩, rfl, rfl, rfl, rfl, rfl, rfl, rfl, rfl⟩,
    marksAgree_marked rfl, rfl, rfl, mark, rfl⟩

/-- An outcome of the episode's work: the station is untouched or halted, and the trace is as it was. -/
structure Judged (s q : State) : Prop where
  station : Untouched s q ∨ ∃ claim, HaltedFrom claim s q
  trc : q.trc = s.trc
  frozen : q.vlk.marks.traceFrozen = s.vlk.marks.traceFrozen
  fault : s.vlk.marks.fault = true → q.vlk.marks.fault = true

theorem Judged.refl (s : State) : Judged s s := ⟨.inl (Untouched.refl s), rfl, rfl, id⟩

theorem judged_enterDouble {detail : Nat} {s : State} (takes : s.stc.op.takesFrames = true) : Judged s (enterDouble detail s) := by
  obtain ⟨halted, -, -, trc, frozen⟩ := enterDouble_spec (detail := detail) takes
  exact ⟨.inr ⟨_, halted⟩, trc, frozen, fun _ => halted.fault⟩

theorem judged_claimOr {epoch measurer alarmK : Nat} {other : State → State} {s : State} (h : Judged s (other s)) :
    Judged s (claimOr epoch measurer alarmK other s) := by
  by_cases claims : Claims s (s.ins.branchFor epoch measurer) alarmK
  · obtain ⟨session, rb, branch, below⟩ := claims
    obtain ⟨halted, trc, frozen, -⟩ := claimOwn_spec (epoch := epoch) (rb := rb) session
    rw [claimOr_claims session branch below]
    exact ⟨.inr ⟨_, halted⟩, trc, frozen, fun _ => halted.fault⟩
  · rw [claimOr_other claims]
    exact h

theorem judged_onsetDouble {r : Nat} {s : State} (takes : s.stc.op.takesFrames = true) : Judged s (onsetDouble r s) := by
  unfold onsetDouble
  split
  · exact judged_enterDouble takes
  · exact Judged.refl s

theorem judged_departureTest {r : Nat} {s : State} (takes : s.stc.op.takesFrames = true) : Judged s (departureTest r s) := by
  unfold departureTest
  split
  · split
    · exact judged_enterDouble takes
    · exact Judged.refl s
  · exact Judged.refl s

theorem setEpisode_untouched (e : EpisodeState) (s : State) : Untouched s (setEpisode e s) :=
  ⟨⟨rfl, rfl, rfl, rfl⟩, ⟨rfl, rfl, rfl, rfl⟩, rfl, rfl, rfl, rfl, rfl, rfl, rfl, rfl⟩

theorem endEpisode_untouched (e : EpisodeState) (s : State) : Untouched s (endEpisode e s) ∧ MarksAgree (endEpisode e s) :=
  ⟨⟨⟨sameEntries_marked _ _, rfl, rfl, rfl⟩, ⟨rfl, rfl, rfl, rfl⟩, rfl, rfl, rfl, rfl, rfl, rfl, rfl, rfl⟩, marksAgree_marked rfl⟩

/-- INS_WARN is of the continue class: it is recorded and moves nothing (R164). -/
theorem raiseWarn_eq (r : Nat) (s : State) : raiseWarn r s = recordFault .insWarn (.number r) s := raise_continue _ rfl

theorem evaluate_onset {epoch measurer r v : Nat} {s : State} (calm : s.epi.state = .normal ∨ s.epi.state = .warning)
    (alarm : r < s.cfg.alarm * v / 10000) : evaluate epoch measurer r v s = onset epoch measurer r v s := by
  rcases calm with state | state <;> simp only [evaluate, state, band_alarm alarm]

/-- Without an onset the evaluation leaves the trace, and the station untouched or halted (R106). -/
theorem judged_evaluate {epoch measurer r v : Nat} {s : State} (takes : s.stc.op.takesFrames = true)
    (no_onset : ¬ ((s.epi.state = .normal ∨ s.epi.state = .warning) ∧ r < s.cfg.alarm * v / 10000)) :
    Judged s (evaluate epoch measurer r v s) := by
  have band : findingBand s.cfg r v = .alarm → r < s.cfg.alarm * v / 10000 := by
    intro is
    by_contra h
    exact band_not_alarm (Nat.not_lt.1 h) is
  unfold evaluate
  split
  case h_1 => exact Judged.refl s
  case h_2 =>
    rw [raiseWarn_eq]
    exact ⟨.inl { setEpisode_untouched .warning s with }, rfl, rfl, fun _ => rfl⟩
  case h_3 state is => exact absurd ⟨.inl state, band is⟩ no_onset
  case h_4 => exact ⟨.inl (setEpisode_untouched .normal s), rfl, rfl, id⟩
  case h_5 => exact Judged.refl s
  case h_6 state is => exact absurd ⟨.inr state, band is⟩ no_onset
  case h_7 => exact judged_claimOr (Judged.refl s)
  case h_8 => exact Judged.refl s
  case h_9 => exact ⟨.inl (endEpisode_untouched .normal s).1, rfl, rfl, id⟩
  case h_10 => exact ⟨.inl (endEpisode_untouched .warning s).1, rfl, rfl, id⟩
  case h_11 => exact judged_claimOr (judged_departureTest takes)
  case h_12 => exact judged_claimOr (Judged.refl s)
  case h_13 => exact Judged.refl s
  case h_14 => exact Judged.refl s
  case h_15 => exact Judged.refl s

theorem judged_onset {epoch measurer r v : Nat} {s : State} (takes : s.stc.op.takesFrames = true) :
    Judged (onsetBegun epoch measurer r v s) (onset epoch measurer r v s) := by
  obtain ⟨kept, -⟩ := onsetBegun_spec epoch measurer r v s
  rw [onset_eq]
  exact judged_claimOr (judged_onsetDouble (by rw [kept.stc]; exact takes))

/-- What holds of a state untouched so far holds of the state before it. -/
theorem HaltedFrom.of_untouched {claim : Option TxEntry} {s z q : State} (h : HaltedFrom claim z q) (k : Untouched s z) :
    HaltedFrom claim s q := { h with
  entries := h.entries.trans k.entries
  unlisted := h.unlisted.trans k.unlisted
  feeder := h.feeder.trans k.feeder
  mismatch := h.mismatch.trans k.mismatch
  cfg := h.cfg.trans k.cfg
  trm := h.trm.trans k.trm
  now := h.now.trans k.now
  pending := h.pending.trans k.pending
  contactor := fun open_ => h.contactor (by rw [k.stc]; exact open_)
  finding := h.finding.trans (by rw [k.dli])
  ins := by rw [h.ins, k.stc, k.ins]
  window := fun session => h.window (by rw [k.stc]; exact session)
  epoch := fun session => h.epoch (by rw [k.stc]; exact session) }

theorem Untouched.trans {s z q : State} (h : Untouched z q) (k : Untouched s z) : Untouched s q where
  entries := h.entries.trans k.entries
  unlisted := h.unlisted.trans k.unlisted
  feeder := h.feeder.trans k.feeder
  mismatch := h.mismatch.trans k.mismatch
  cfg := h.cfg.trans k.cfg
  trm := h.trm.trans k.trm
  now := h.now.trans k.now
  pending := h.pending.trans k.pending
  stc := h.stc.trans k.stc
  shu := h.shu.trans k.shu
  dmu := h.dmu.trans k.dmu
  htr := h.htr.trans k.htr
  dli := h.dli.trans k.dli
  ins := h.ins.trans k.ins
  mtr := h.mtr.trans k.mtr
  ses := h.ses.trans k.ses

/-- The evaluation of a finding leaves the station untouched or halted (R106, R163). -/
theorem evaluate_station {epoch measurer r v : Nat} {s : State} (takes : s.stc.op.takesFrames = true) :
    Untouched s (evaluate epoch measurer r v s) ∨ ∃ claim, HaltedFrom claim s (evaluate epoch measurer r v s) := by
  by_cases onset_ : (s.epi.state = .normal ∨ s.epi.state = .warning) ∧ r < s.cfg.alarm * v / 10000
  · obtain ⟨kept, -⟩ := onsetBegun_spec epoch measurer r v s
    rw [evaluate_onset onset_.1 onset_.2]
    rcases (judged_onset (epoch := epoch) (measurer := measurer) (r := r) (v := v) takes).station with untouched | ⟨claim, halted⟩
    · exact .inl (untouched.trans kept)
    · exact .inr ⟨claim, halted.of_untouched kept⟩
  · exact (judged_evaluate takes onset_).station

/-- The trace after the evaluation: frozen at an onset, and otherwise as it was (R115). -/
theorem evaluate_trace {epoch measurer r v : Nat} {s : State} (takes : s.stc.op.takesFrames = true) :
    let calm := s.epi.state = .normal ∨ s.epi.state = .warning
    let q := evaluate epoch measurer r v s
    q.trc = (if calm ∧ r < s.cfg.alarm * v / 10000 then { s.trc with frozen := true } else s.trc) ∧
      (calm → r < s.cfg.alarm * v / 10000 → s.trc.frozen = false → q.vlk.marks.traceFrozen = true) := by
  intro calm q
  by_cases onset_ : calm ∧ r < s.cfg.alarm * v / 10000
  · obtain ⟨-, -, -, trc, mark, -⟩ := onsetBegun_spec epoch measurer r v s
    have judged := judged_onset (epoch := epoch) (measurer := measurer) (r := r) (v := v) takes
    rw [if_pos onset_, show q = onset epoch measurer r v s from evaluate_onset onset_.1 onset_.2, judged.trc, judged.frozen]
    exact ⟨trc, fun _ _ => mark⟩
  · rw [if_neg onset_]
    exact ⟨(judged_evaluate takes onset_).trc, fun c a => absurd ⟨c, a⟩ onset_⟩

theorem freezeTrace_fault {s : State} (h : s.vlk.marks.fault = true) : (freezeTrace s).vlk.marks.fault = true := by
  unfold freezeTrace
  split <;> exact h

/-- A pending FAULT stays pending through the evaluation (R175). -/
theorem evaluate_fault {epoch measurer r v : Nat} {s : State} (takes : s.stc.op.takesFrames = true)
    (fault : s.vlk.marks.fault = true) : (evaluate epoch measurer r v s).vlk.marks.fault = true := by
  by_cases onset_ : (s.epi.state = .normal ∨ s.epi.state = .warning) ∧ r < s.cfg.alarm * v / 10000
  · rw [evaluate_onset onset_.1 onset_.2]
    exact (judged_onset takes).fault (freezeTrace_fault fault)
  · exact (judged_evaluate takes onset_).fault fault

/-! ## An adopted finding (R100, R106, R115) -/

theorem HaltedFrom.adopted {claim : Option TxEntry} {s q : State} (h : HaltedFrom claim s q) :
    q.stc.op = .halted ∧ (ContactorSafe s → q.stc.contactor = false) ∧ (MarksAgree s → MarksAgree q) ∧
      q.vlk.marks.fault = true ∧ q.dli.queue.leave = some { content := .none, failed := 0 } := by
  refine ⟨h.op, fun safe => h.contactor ?_, fun _ => h.marks, h.fault, h.leave⟩
  by_cases session : s.stc.op = .session
  · exact .inl session
  · exact .inr (safe.trans (decide_eq_false session))

theorem Untouched.restKept {s q : State} (h : Untouched s q) : RestKept { s with trc := q.trc } q :=
  ⟨h.now, h.pending, h.cfg, h.mtr, h.ses, h.stc, rfl, h.trm⟩

theorem Untouched.clock {s q : State} (h : Untouched s q) : clock q = clock s := by rw [Machine.clock, Machine.clock, h.stc]

/-- The own claim made in the state `z`, read from the state `b` before it (R107, R112). -/
theorem claimed_spec {b z : State} {epoch rb : Nat} {o : Option Onset} {members : List Claimant} (kept : Untouched b z)
    (session : b.stc.op = .session) (flt : z.flt = b.flt) (set_ : z.epi.claimants = members) (onset : z.epi.onset = o) :
    let q := claimOwn epoch rb z
    let joined := joinClaimant { code := b.cfg.stationCode, epoch := epoch, rb := rb, departed := false } members
    let entry := fun (c : FaultCode) (op : OpState) =>
      faultAdded { time := clock b, code := c, detail := .number rb, state := op }
    HaltedFrom (some { content := .claim epoch rb, failed := 0 }) b q ∧
      (z.epi.state = .claimWait → joined.length = 1 → q.flt = entry .insLocal .session b.flt ∧
        q.epi = { state := .localFault, claimants := joined, window := none, onset := o }) ∧
      (z.epi.state ≠ .claimWait ∨ joined.length ≠ 1 →
        q.flt = entry .insDouble .halted (entry .insLocal .session b.flt) ∧
        q.epi = { state := .doubleFault, claimants := joined, window := none, onset := o }) := by
  intro q joined entry
  obtain ⟨halted, -, -, one, two⟩ := claimOwn_spec (epoch := epoch) (rb := rb) (s := z) (by rw [kept.stc]; exact session)
  have same : ownJoined epoch rb z = joined := by rw [ownJoined, kept.cfg, set_]
  rw [same, kept.clock, flt, onset] at one two
  exact ⟨halted.of_untouched kept, one, two⟩

/-- The state in which an adopted finding is evaluated: the bus record and the trace entry made (R100, R115). -/
def adopting (epoch measurer r v : Nat) (s : State) : State :=
  enterTrace epoch measurer (some r) v { s with ins := { s.ins with
    busRecord := some { epoch := epoch, measurer := measurer, r := r, voltage := v, time := clock s } } }

theorem adopt_eq (epoch measurer r v : Nat) (s : State) :
    adopt epoch measurer r v s = evaluate epoch measurer r v (adopting epoch measurer r v s) := rfl

/-- The state reached is untouched, with this episode, and no fault was raised. -/
def Quiet (s : State) (e : Epi) (q : State) : Prop := (q.epi = e ∧ RestKept { s with trc := q.trc } q) ∧ q.flt = s.flt

/-- The members and the faults of a double fault (R112). -/
def Doubled (s : State) (r : Nat) (o : Option Onset) (members : List Claimant) (q : State) : Prop :=
  (q.stc.op = .halted ∧ (ContactorSafe s → q.stc.contactor = false) ∧ (MarksAgree s → MarksAgree q) ∧
    q.vlk.marks.fault = true ∧ q.dli.queue.leave = some { content := .none, failed := 0 }) ∧
  q.flt = faultAdded { time := clock s, code := .insDouble, detail := .number r, state := s.stc.op } s.flt ∧
  q.epi = { state := .doubleFault, claimants := members, window := none, onset := o }

/-- The own claim's outcome, by whether the episode waits for claims (R107, R112). -/
def Claimed (s : State) (branch : Option (Option Nat)) (epoch alarmK : Nat) (o : Option Onset) (members : List Claimant)
    (waits : Prop) (q : State) : Prop :=
  ∀ rb, s.stc.op = .session → branch = some (some rb) → rb < alarmK →
    let joined := joinClaimant { code := s.cfg.stationCode, epoch := epoch, rb := rb, departed := false } members
    let fault := fun (c : FaultCode) (d : Nat) (op : OpState) =>
      faultAdded { time := clock s, code := c, detail := .number d, state := op }
    (q.stc.op = .halted ∧ (ContactorSafe s → q.stc.contactor = false) ∧ (MarksAgree s → MarksAgree q) ∧
      q.vlk.marks.fault = true ∧ q.dli.queue.leave = some { content := .none, failed := 0 }) ∧
    q.dli.queue.claim = some { content := .claim epoch rb, failed := 0 } ∧
    (waits → joined.length = 1 → q.flt = fault .insLocal rb .session s.flt ∧
      q.epi = { state := .localFault, claimants := joined, window := none, onset := o }) ∧
    (¬ waits ∨ joined.length ≠ 1 → q.flt = fault .insDouble rb .halted (fault .insLocal rb .session s.flt) ∧
      q.epi = { state := .doubleFault, claimants := joined, window := none, onset := o })

theorem quiet_refl (s : State) : Quiet s s.epi s := ⟨⟨rfl, rfl, rfl, rfl, rfl, rfl, rfl, rfl, rfl⟩, rfl⟩

theorem claimed_claimOr {epoch measurer alarmK : Nat} {other : State → State} {s z : State} {o : Option Onset}
    {members : List Claimant} {waits : Prop} (kept : Untouched s z) (flt : z.flt = s.flt) (set_ : z.epi.claimants = members)
    (onset : z.epi.onset = o) (waits_iff : z.epi.state = .claimWait ↔ waits) :
    Claimed s (z.ins.branchFor epoch measurer) epoch alarmK o members waits (claimOr epoch measurer alarmK other z) := by
  intro rb session branch below joined fault
  obtain ⟨halted, one, two⟩ := claimed_spec (epoch := epoch) (rb := rb) kept session flt set_ onset
  rw [claimOr_claims (by rw [kept.stc]; exact session) branch below, ← waits_iff]
  exact ⟨halted.adopted, halted.claim, one, two⟩

theorem doubled_enterDouble {r : Nat} {s z : State} (takes : s.stc.op.takesFrames = true) (kept : Untouched s z) (flt : z.flt = s.flt) :
    Doubled s r z.epi.onset z.epi.claimants (enterDouble r z) := by
  obtain ⟨halted, epi, fault, -⟩ := enterDouble_spec (detail := r) (s := z) (by rw [kept.stc]; exact takes)
  rw [kept.clock, kept.stc, flt] at fault
  exact ⟨(halted.of_untouched kept).adopted, fault, epi⟩

/-- Evaluation in the alarm band, outside an onset (R106). -/
theorem evaluate_alarm {epoch measurer r v : Nat} {s : State} (state : s.epi.state = .claimWait ∨ s.epi.state = .busFault)
    (alarm : r < s.cfg.alarm * v / 10000) :
    evaluate epoch measurer r v s = claimOr epoch measurer (s.cfg.alarm * v / 10000) id s := by
  rcases state with state | state <;> simp only [evaluate, state, band_alarm alarm] <;> rfl

theorem evaluate_attributed {epoch measurer r v : Nat} {s : State} (state : s.epi.state = .attributed)
    (alarm : r < s.cfg.alarm * v / 10000) :
    evaluate epoch measurer r v s = claimOr epoch measurer (s.cfg.alarm * v / 10000) (departureTest r) s := by
  simp only [evaluate, state, band_alarm alarm]
  rfl

/-- The states that a finding outside the alarm band leaves as they are (R106). -/
theorem evaluate_waits {epoch measurer r v : Nat} {s : State} (state : s.epi.state = .claimWait ∨ s.epi.state = .busFault)
    (alarm : s.cfg.alarm * v / 10000 ≤ r) : evaluate epoch measurer r v s = s := by
  have band := band_not_alarm alarm
  unfold evaluate
  rcases state with state | state <;> cases is : findingBand s.cfg r v <;> simp_all

theorem evaluate_latched {epoch measurer r v : Nat} {s : State} (state : s.epi.state = .localFault ∨ s.epi.state = .doubleFault) :
    evaluate epoch measurer r v s = s := by
  rcases state with state | state <;> simp only [evaluate, state]

theorem departureTest_one {r : Nat} {c : Claimant} {s : State} (one : s.epi.claimants = [c]) :
    departureTest r s = if c.departed then enterDouble r s else s := by simp only [departureTest, one]

/-- A finding that begins no onset, by the state and the band (R106). -/
theorem evaluate_calm {epoch measurer r v : Nat} {s : State} :
    let warnK := s.cfg.warn * v / 10000
    let alarmK := s.cfg.alarm * v / 10000
    let q := evaluate epoch measurer r v s
    (s.epi.state = .normal → alarmK ≤ r ∧ warnK ≤ r → Quiet s s.epi q) ∧
    (s.epi.state = .normal → alarmK ≤ r ∧ r < warnK → (q.epi = { s.epi with state := .warning, window := none } ∧
      RestKept { s with trc := q.trc } q) ∧ FaultRaised .insWarn (.number r) s q) ∧
    (s.epi.state = .warning → alarmK ≤ r ∧ warnK ≤ r → Quiet s { s.epi with state := .normal, window := none } q) ∧
    (s.epi.state = .warning → alarmK ≤ r ∧ r < warnK → Quiet s s.epi q) := by
  intro warnK alarmK q
  refine ⟨fun state h => ?_, fun state h => ?_, fun state h => ?_, fun state h => ?_⟩
  · have eq : q = s := by simp only [q, evaluate, state, band_top h.1 h.2]
    rw [eq]
    exact quiet_refl s
  · have eq : q = recordFault .insWarn (.number r) (setEpisode .warning s) := by
      simp only [q, evaluate, state, band_middle h.1 h.2, raiseWarn_eq]
    rw [eq]
    exact ⟨⟨rfl, rfl, rfl, rfl, rfl, rfl, rfl, rfl, rfl⟩, recordFault_flt .insWarn (.number r) (setEpisode .warning s), rfl⟩
  · have eq : q = setEpisode .normal s := by simp only [q, evaluate, state, band_top h.1 h.2]
    rw [eq]
    exact ⟨⟨rfl, (setEpisode_untouched .normal s).restKept⟩, rfl⟩
  · have eq : q = s := by simp only [q, evaluate, state, band_middle h.1 h.2]
    rw [eq]
    exact quiet_refl s

/-- A finding during an episode, by the state and the band (R106, R107, R110). -/
theorem evaluate_episode {epoch measurer r v : Nat} {s : State} (takes : s.stc.op.takesFrames = true) :
    let warnK := s.cfg.warn * v / 10000
    let alarmK := s.cfg.alarm * v / 10000
    let q := evaluate epoch measurer r v s
    let branch := s.ins.branchFor epoch measurer
    (∀ waits, (s.epi.state = .claimWait ∧ waits ∨ (s.epi.state = .attributed ∨ s.epi.state = .busFault) ∧ ¬ waits) → r < alarmK →
      Claimed s branch epoch alarmK s.epi.onset s.epi.claimants waits q) ∧
    (s.epi.state = .claimWait ∨ s.epi.state = .busFault → alarmK ≤ r ∨ ¬ Claims s branch alarmK → Quiet s s.epi q) ∧
    (s.epi.state = .attributed → alarmK ≤ r ∧ warnK ≤ r → MarksAgree q ∧
      Quiet s { s.epi with state := .normal, claimants := [], window := none } q) ∧
    (s.epi.state = .attributed → alarmK ≤ r ∧ r < warnK → MarksAgree q ∧
      Quiet s { s.epi with state := .warning, claimants := [], window := none } q) ∧
    (∀ c, s.epi.state = .attributed → r < alarmK → ¬ Claims s branch alarmK → s.epi.claimants = [c] →
      (c.departed = true → Doubled s r s.epi.onset [c] q) ∧ (c.departed = false → Quiet s s.epi q)) ∧
    (s.epi.state = .localFault ∨ s.epi.state = .doubleFault → Quiet s s.epi q) := by
  intro warnK alarmK q branch
  refine ⟨fun waits state alarm => ?_, fun state h => ?_, fun state h => ?_, fun state h => ?_, fun c state alarm none one => ?_,
    fun state => ?_⟩
  · have claims : ∃ other, q = claimOr epoch measurer alarmK other s := by
      rcases state with ⟨state, -⟩ | ⟨state | state, -⟩
      · exact ⟨id, evaluate_alarm (.inl state) alarm⟩
      · exact ⟨departureTest r, evaluate_attributed state alarm⟩
      · exact ⟨id, evaluate_alarm (.inr state) alarm⟩
    obtain ⟨other, eq⟩ := claims
    rw [eq]
    refine claimed_claimOr (Untouched.refl s) rfl rfl rfl ?_
    rcases state with ⟨state, yes⟩ | ⟨state | state, no⟩
    · exact ⟨fun _ => yes, fun _ => state⟩
    · exact ⟨fun h => absurd (state.symm.trans h) (by decide), fun h => absurd h no⟩
    · exact ⟨fun h => absurd (state.symm.trans h) (by decide), fun h => absurd h no⟩
  · have eq : q = s := by
      by_cases alarm : r < alarmK
      · exact (evaluate_alarm state alarm).trans (claimOr_other (h.resolve_left (Nat.not_le.2 alarm)))
      · exact evaluate_waits state (Nat.not_lt.1 alarm)
    rw [eq]
    exact quiet_refl s
  · have eq : q = endEpisode .normal s := by simp only [q, evaluate, state, band_top h.1 h.2]
    rw [eq]
    obtain ⟨untouched, agree⟩ := endEpisode_untouched .normal s
    exact ⟨agree, ⟨rfl, untouched.restKept⟩, rfl⟩
  · have eq : q = endEpisode .warning s := by simp only [q, evaluate, state, band_middle h.1 h.2]
    rw [eq]
    obtain ⟨untouched, agree⟩ := endEpisode_untouched .warning s
    exact ⟨agree, ⟨rfl, untouched.restKept⟩, rfl⟩
  · have eq : q = if c.departed then enterDouble r s else s :=
      ((evaluate_attributed state alarm).trans (claimOr_other none)).trans (departureTest_one one)
    refine ⟨fun gone => ?_, fun here => ?_⟩
    · rw [eq, if_pos gone, ← one]
      exact doubled_enterDouble takes (Untouched.refl s) rfl
    · rw [eq, if_neg (by rw [here]; decide)]
      exact quiet_refl s
  · rw [show q = s from evaluate_latched state]
    exact quiet_refl s

/-- A finding that begins an onset (R107). -/
theorem evaluate_begins {epoch measurer r v : Nat} {s : State} (takes : s.stc.op.takesFrames = true)
    (calm : s.epi.state = .normal ∨ s.epi.state = .warning) (alarm : r < s.cfg.alarm * v / 10000) :
    let q := evaluate epoch measurer r v s
    let branch := s.ins.branchFor epoch measurer
    let cs := s.epi.claimants.filter (fun c => decide (c.epoch = epoch))
    let o : Onset := { epoch := epoch, measurer := measurer, r := r, voltage := v, warnK := s.cfg.warn * v / 10000
                       alarmK := s.cfg.alarm * v / 10000 }
    Claimed s branch epoch (s.cfg.alarm * v / 10000) (some o) cs True q ∧
    (¬ Claims s branch (s.cfg.alarm * v / 10000) → cs.length < 2 → MarksAgree q ∧
      Quiet s { state := .claimWait, claimants := cs, window := some (s.now + 3 * s.cfg.ta * 1000), onset := some o } q) ∧
    (¬ Claims s branch (s.cfg.alarm * v / 10000) → 2 ≤ cs.length → Doubled s r (some o) cs q) := by
  intro q branch cs o
  obtain ⟨kept, agree, flt, -, -, epi⟩ := onsetBegun_spec epoch measurer r v s
  have eq : q = claimOr epoch measurer (s.cfg.alarm * v / 10000) (onsetDouble r) (onsetBegun epoch measurer r v s) :=
    evaluate_onset calm alarm
  have members : (onsetBegun epoch measurer r v s).epi.claimants = cs := by rw [epi]
  have unclaimed : ¬ Claims s branch (s.cfg.alarm * v / 10000) → q = onsetDouble r (onsetBegun epoch measurer r v s) := by
    intro none
    refine eq.trans (claimOr_other ?_)
    rw [Claims, kept.stc, kept.ins]
    exact none
  refine ⟨?_, fun none few => ?_, fun none many => ?_⟩
  · have claimed := claimed_claimOr (epoch := epoch) (measurer := measurer) (alarmK := s.cfg.alarm * v / 10000)
      (other := onsetDouble r) (o := some o) (waits := True) kept flt members (by rw [epi]) (by rw [epi]; simp)
    rw [kept.ins, ← eq] at claimed
    exact claimed
  · have same : q = onsetBegun epoch measurer r v s :=
      (unclaimed none).trans (if_neg (by rw [members]; exact Nat.not_le.2 few))
    rw [same]
    exact ⟨agree, ⟨epi, kept.restKept⟩, flt⟩
  · have same : q = enterDouble r (onsetBegun epoch measurer r v s) :=
      (unclaimed none).trans (if_pos (by rw [members]; exact many))
    have doubled := doubled_enterDouble (r := r) takes kept flt
    rw [members, epi, ← same] at doubled
    exact doubled

/-- An ACCEPTED finding adopted on the line does what R106 tabulates: the entry made, `evaluate_calm`, `evaluate_begins` and
`evaluate_episode` on it. -/
theorem findingAdopted_adopt {epoch measurer r v : Nat} {s : State} (takes : s.stc.op.takesFrames = true) :
    FindingAdopted s (s.ins.branchFor epoch measurer) epoch measurer r v (adopt epoch measurer r v s) := by
  have takes' : (adopting epoch measurer r v s).stc.op.takesFrames = true := takes
  obtain ⟨trc, mark⟩ := evaluate_trace (epoch := epoch) (measurer := measurer) (r := r) (v := v) takes'
  obtain ⟨normal_top, normal_middle, warning_top, warning_middle⟩ :=
    evaluate_calm (epoch := epoch) (measurer := measurer) (r := r) (v := v) (s := adopting epoch measurer r v s)
  obtain ⟨claimed, waits, ends, warns, departed, latched⟩ :=
    evaluate_episode (epoch := epoch) (measurer := measurer) (r := r) (v := v) takes'
  have begins := evaluate_begins (epoch := epoch) (measurer := measurer) (r := r) (v := v) takes'
  have bus : (adopt epoch measurer r v s).ins.busRecord =
      some { epoch := epoch, measurer := measurer, r := r, voltage := v, time := clock s } := by
    rcases evaluate_station (epoch := epoch) (measurer := measurer) (r := r) (v := v) takes' with untouched | ⟨claim, halted⟩
    · rw [adopt_eq, untouched.ins]
      rfl
    · rw [adopt_eq, halted.ins]
      split <;> rfl
  have thawed : s.trc.frozen = false → (adopting epoch measurer r v s).trc.frozen = false := by
    intro h
    show (Trc.enter _ s.trc).frozen = false
    simp [Trc.enter, h]
  rw [← adopt_eq] at trc mark normal_top normal_middle warning_top warning_middle claimed waits ends warns departed latched begins
  generalize adopt epoch measurer r v s = q at *
  exact ⟨bus, trc, fun c a h => mark c a (thawed h), normal_top, normal_middle, warning_top, warning_middle,
    fun c a => (begins c a).1, fun c a => (begins c a).2.1, fun c a => (begins c a).2.2,
    fun state => claimed True (.inl ⟨state, trivial⟩), fun state => waits (.inl state), ends, warns,
    fun state => claimed False (.inr ⟨.inl state, id⟩), departed, fun state => claimed False (.inr ⟨.inr state, id⟩),
    fun state => waits (.inr state), latched⟩

end Sys2Proof.Proofs
end

section
/-! PROOF. EPOCH, FINDING and CLAIM (R6, R95 to R100, R109): the refresh of the sender's entry around the Insulation Unit's work, and
that work by kind. -/

namespace Sys2Proof.Proofs
open Sys2Proof.Machine

/-! ## The refresh of an entry, passed on (R6, R14 to R16) -/

/-- F recomputed: the faults and the mark of a mismatch that begins (R15). -/
theorem refreshFeeder_faults (s : State) :
    let f := effectiveFeeder s.cfg.feederLimit s.ptb.entries
    let begins := s.ptb.mismatch = false ∧ f < s.cfg.feederLimit
    (refreshFeeder s).flt = (if begins then
      faultAdded { time := clock s, code := .limitMismatch, detail := .number (leastFeederCode f s.ptb.entries), state := s.stc.op } s.flt
      else s.flt) ∧
    (refreshFeeder s).vlk = (if begins then { s.vlk with marks := { s.vlk.marks with fault := true } } else s.vlk) := by
  intro f begins
  have starts : s.ptb.startsMismatch s.cfg.feederLimit = true ↔ begins := by
    simp only [Ptb.startsMismatch, Bool.and_eq_true, decide_eq_true_eq, Bool.not_eq_true']
    exact and_comm
  unfold refreshFeeder
  by_cases h : begins
  · rw [if_pos h, if_pos h, if_pos (starts.2 h)]
    exact ⟨recordFault_flt _ _ _, rfl⟩
  · rw [if_neg h, if_neg h, if_neg (mt starts.1 h)]
    exact ⟨rfl, rfl⟩

/-- A settled table passed on, from the state `b` in which the event's own work has been done to `y`: F, the mismatch and the faults
stand in `y`, everything else as in `b`. -/
theorem settleTable_settled {force : Bool} {before b y : State} (rest : RestKept b y) (shu : y.shu = b.shu) (dmu : y.dmu = b.dmu)
    (htr : y.htr = b.htr) (ins : y.ins = b.ins) (dli : y.dli = b.dli)
    (feeder : y.ptb.feeder = effectiveFeeder b.cfg.feederLimit y.ptb.entries)
    (mismatch : y.ptb.mismatch = decide (y.ptb.feeder < b.cfg.feederLimit))
    (flt : y.flt = if b.ptb.mismatch = false ∧ y.ptb.feeder < b.cfg.feederLimit then
      faultAdded { time := clock b, code := .limitMismatch
                   detail := .number (leastFeederCode y.ptb.feeder y.ptb.entries), state := b.stc.op } b.flt else b.flt)
    (vlk : y.vlk = if b.ptb.mismatch = false ∧ y.ptb.feeder < b.cfg.feederLimit then
      { b.vlk with marks := { b.vlk.marks with fault := true } } else b.vlk) :
    TableSettled b (finish force before (settleTable y)) := by
  obtain ⟨now, pending, cfg, mtr, ses, stc, trc, trm⟩ := rest
  obtain ⟨zones, window, start, converted⟩ := settleTable_htr y
  obtain ⟨tail, window', start', converted'⟩ := finish_kept force before (settleTable y)
  have shares := settleTable_shu y
  have split := settleTable_dmu y
  have queue := settleTable_dli y
  have inputs : (finish force before (settleTable y)).grantInputs = y.grantInputs :=
    (finish_grantInputs _ _ _).trans (settleTable_grantInputs y)
  rw [settleTable_cfg, cfg] at tail
  rw [cfg, htr] at zones
  unfold TableSettled
  simp only [finish_ptb, finish_shu, finish_dmu, finish_dli, finish_flt, finish_vlk, inputs, settleTable_ptb]
  simp only [shu, now, cfg] at shares
  simp only [dmu, cfg] at split
  simp only [shu, now, cfg, dli, stc, Bool.or_eq_true, grantMoves_iff, or_assoc] at queue
  refine ⟨⟨?_, ?_, ?_, ?_, ?_, ?_, ?_, ?_⟩, ?_, ?_, ?_, ?_, zones.trans tail, feeder, mismatch, shares, split, queue, ?_, ?_⟩
  · simpa using now
  · simpa using pending
  · simpa using cfg
  · simpa using mtr
  · simpa using ses
  · simpa using stc
  · simpa using trc
  · simpa using trm
  · simpa using ins
  · rw [window', window, htr]
  · rw [start', start, htr]
  · rw [converted', converted, htr]
  · simpa using flt
  · simpa using vlk

/-- F and the lowest code that says it look at no claimant mark (R14, R15). -/
theorem sameEntries_feeder {es fs : List PeerEntry} (h : SameEntries es fs) (own : Nat) :
    effectiveFeeder own es = effectiveFeeder own fs ∧ ∀ f, leastFeederCode f es = leastFeederCode f fs := by
  have feeder : ∀ gs : List PeerEntry, effectiveFeeder own (gs.map (fun e => { e with claimant := false })) = effectiveFeeder own gs :=
    fun gs => List.foldl_map
  have least : ∀ (f : Nat) (gs : List PeerEntry),
      leastFeederCode f (gs.map (fun e => { e with claimant := false })) = leastFeederCode f gs := by
    intro f gs
    simp only [leastFeederCode, List.find?_map, Function.comp_def]
    cases gs.find? (fun e => decide (e.share.feederLimit = f)) <;> rfl
  refine ⟨?_, fun f => ?_⟩
  · rw [← feeder es, h, feeder]
  · rw [← least f es, h, least]

theorem aliveBefore_stale {code : Nat} {s : State} (stale : wasStale code s.ptb.entries = true) : aliveBefore code s =
    refreshFeeder (setEntries (updateEntry code PeerEntry.refreshed s.ptb.entries) s) := if_pos stale

theorem aliveBefore_fresh {code : Nat} {s : State} (fresh : wasStale code s.ptb.entries = false) : aliveBefore code s =
    setEntries (updateEntry code PeerEntry.refreshed s.ptb.entries) s := if_neg (by rw [fresh]; decide)

theorem handleAlive_stale {code : Nat} {take : State → State} {s : State} (stale : wasStale code s.ptb.entries = true) :
    handleAlive code take s = settleTable (take (aliveBefore code s)) := by
  rw [aliveBefore_stale stale]
  exact if_pos stale

theorem handleAlive_fresh {code : Nat} {take : State → State} {s : State} (fresh : wasStale code s.ptb.entries = false) :
    handleAlive code take s = take (aliveBefore code s) := by
  rw [aliveBefore_fresh fresh]
  exact if_neg (by rw [fresh]; decide)

theorem handleAlive_window (code : Nat) (take : State → State) (before s : State) :
    (finish false before (handleAlive code take s)).htr.window = (take (aliveBefore code s)).htr.window := by
  rw [(finish_kept _ _ _).2.1]
  cases stale : wasStale code s.ptb.entries with
  | true => rw [handleAlive_stale stale, (settleTable_htr _).2.1]
  | false => rw [handleAlive_fresh stale]

/-- The entry of a LIMIT_MISMATCH that begins with these entries (R15). -/
def mismatchEntry (s : State) (f : Nat) (es : List PeerEntry) : FaultEntry :=
  { time := clock s, code := .limitMismatch, detail := .number (leastFeederCode f es), state := s.stc.op }

/-- The refresh of an entry passed on, from the state `b` with the Insulation Unit's work done: what it asks of that work. -/
theorem refreshSettled_alive {code : Nat} {take : State → State} {before s b y : State} (work : take (aliveBefore code s) = y)
    (rest : RestKept b y) (shu : y.shu = b.shu)
    (dmu : y.dmu = b.dmu) (htr : y.htr = b.htr)
    (ins : y.ins = b.ins) (dli : y.dli = b.dli) (cfg : b.cfg = s.cfg)
    (table : TableKept (aliveBefore code s) y)
    (fresh : wasStale code s.ptb.entries = false → b.ptb.feeder = s.ptb.feeder ∧ b.ptb.mismatch = s.ptb.mismatch ∧
      y.flt = b.flt ∧ y.vlk = b.vlk)
    (stale : wasStale code s.ptb.entries = true →
      let f := effectiveFeeder s.cfg.feederLimit (updateEntry code PeerEntry.refreshed s.ptb.entries)
      let begins := b.ptb.mismatch = false ∧ f < s.cfg.feederLimit
      y.flt = (if begins then faultAdded (mismatchEntry b f (updateEntry code PeerEntry.refreshed s.ptb.entries)) b.flt
        else b.flt) ∧
      y.vlk = (if begins then { b.vlk with marks := { b.vlk.marks with fault := true } } else b.vlk)) :
    RefreshSettled code s.ptb.entries b (finish false before (handleAlive code take s)) := by
  subst work
  refine ⟨fun was => ?_, fun was => ?_⟩
  · obtain ⟨flt, vlk⟩ := stale was
    rw [handleAlive_stale was]
    have x : (aliveBefore code s).ptb.entries = updateEntry code PeerEntry.refreshed s.ptb.entries ∧
        (aliveBefore code s).ptb.feeder =
          effectiveFeeder s.cfg.feederLimit (updateEntry code PeerEntry.refreshed s.ptb.entries) ∧
        (aliveBefore code s).ptb.mismatch = decide ((aliveBefore code s).ptb.feeder < s.cfg.feederLimit) := by
      rw [aliveBefore_stale was, refreshFeeder_ptb]
      exact ⟨rfl, rfl, rfl⟩
    obtain ⟨entries, feeder, mismatch⟩ := x
    obtain ⟨same, least⟩ := sameEntries_feeder table.entries s.cfg.feederLimit
    rw [entries] at same least
    have stands := table.feeder.trans feeder
    refine settleTable_settled rest shu dmu htr ins dli ?_ ?_ ?_ ?_
    · rw [cfg, same, stands]
    · rw [cfg, table.mismatch, table.feeder, mismatch]
    · rw [cfg, stands, least]
      exact flt
    · rw [cfg, stands]
      exact vlk
  · obtain ⟨feeder, mismatch, flt, vlk⟩ := fresh was
    obtain ⟨-, -, ptb, -, -, -, -, -, -, flt', vlk', -, -, -, -, shares, -⟩ := handleAlive_spec code take before s
    obtain ⟨shu', dmu', dli'⟩ := shares was
    refine ⟨shu'.trans shu, dmu'.trans dmu, dli'.trans dli, flt'.trans flt, vlk'.trans vlk, ?_, ?_⟩
    · rw [ptb, table.feeder, aliveBefore_fresh was, feeder]
      rfl
    · rw [ptb, table.mismatch, aliveBefore_fresh was, mismatch]
      rfl

/-- The refresh passed on where the Insulation Unit's work raises no fault. -/
theorem refreshSettled_faultless {code : Nat} {take : State → State} {before s b y : State} (work : take (aliveBefore code s) = y)
    (rest : RestKept b y) (shu : y.shu = b.shu)
    (dmu : y.dmu = b.dmu) (htr : y.htr = b.htr)
    (ins : y.ins = b.ins) (dli : y.dli = b.dli) (cfg : b.cfg = s.cfg)
    (table : TableKept (aliveBefore code s) y)
    (flt : y.flt = (aliveBefore code s).flt) (vlk : y.vlk = (aliveBefore code s).vlk)
    (same : b.ptb.feeder = s.ptb.feeder ∧ b.ptb.mismatch = s.ptb.mismatch ∧ b.flt = s.flt ∧ b.vlk = s.vlk ∧ b.stc = s.stc) :
    RefreshSettled code s.ptb.entries b (finish false before (handleAlive code take s)) := by
  obtain ⟨feeder, mismatch, faults, link, stc⟩ := same
  refine refreshSettled_alive work rest shu dmu htr ins dli cfg table (fun fresh => ⟨feeder, mismatch, ?_, ?_⟩) (fun stale => ?_)
  · rw [flt, aliveBefore_fresh fresh, faults]
    rfl
  · rw [vlk, aliveBefore_fresh fresh, link]
    rfl
  · obtain ⟨faults', link'⟩ := refreshFeeder_faults (setEntries (updateEntry code PeerEntry.refreshed s.ptb.entries) s)
    have entry : mismatchEntry b = mismatchEntry s := by
      funext f es
      rw [mismatchEntry, mismatchEntry, clock, clock, stc]
    rw [flt, vlk, aliveBefore_stale stale, faults, link, mismatch, entry]
    exact ⟨faults', link'⟩

/-! ## CLAIM (R109) -/

theorem takeClaim_out {code epoch rb : Nat} {s : State} (out : 50000 < rb) : takeClaim code epoch rb s = s :=
  if_neg (Nat.not_le.2 out)

/-- The claimant set with a sender's claim joined (R109). -/
def claimJoined (code epoch rb : Nat) (s : State) : State :=
  setClaimants (joinClaimant { code := code, epoch := epoch, rb := rb, departed := false } s.epi.claimants) s

theorem claimJoined_epi (code epoch rb : Nat) (s : State) : (claimJoined code epoch rb s).epi = { s.epi with
    claimants := joinClaimant { code := code, epoch := epoch, rb := rb, departed := false } s.epi.claimants } := rfl

theorem claimJoined_entries (code epoch rb : Nat) (s : State) :
    let cs := joinClaimant { code := code, epoch := epoch, rb := rb, departed := false } s.epi.claimants
    (claimJoined code epoch rb s).ptb.entries = s.ptb.entries.map (fun e => { e with claimant := isMember e.code cs }) := rfl

theorem takeClaim_in {code epoch rb : Nat} {s : State} (inside : rb ≤ 50000) : takeClaim code epoch rb s =
    if isMember code s.epi.claimants then claimJoined code epoch rb s else memberJoined rb (claimJoined code epoch rb s) :=
  if_pos inside

/-- A claim that makes no double fault joins the set and does nothing else (R109). -/
theorem takeClaim_joins {code epoch rb : Nat} {s : State} (inside : rb ≤ 50000)
    (single : ¬ (isMember code s.epi.claimants = false ∧ (s.epi.state = .attributed ∨ s.epi.state = .busFault ∨
      s.epi.state = .claimWait ∧ 2 ≤ (claimJoined code epoch rb s).epi.claimants.length))) :
    takeClaim code epoch rb s = claimJoined code epoch rb s := by
  rw [takeClaim_in inside]
  cases member : isMember code s.epi.claimants with
  | true => rfl
  | false =>
    have state : (claimJoined code epoch rb s).epi.state = s.epi.state := rfl
    rw [if_neg (by decide), memberJoined, state]
    cases is : s.epi.state <;> simp_all

theorem takeClaim_doubles {code epoch rb : Nat} {s : State} (inside : rb ≤ 50000) (new : isMember code s.epi.claimants = false)
    (double : s.epi.state = .attributed ∨ s.epi.state = .busFault ∨
      s.epi.state = .claimWait ∧ 2 ≤ (claimJoined code epoch rb s).epi.claimants.length) :
    takeClaim code epoch rb s = enterDouble rb (claimJoined code epoch rb s) := by
  have state : (claimJoined code epoch rb s).epi.state = s.epi.state := rfl
  rw [takeClaim_in inside, if_neg (by rw [new]; decide), memberJoined, state]
  rcases double with is | is | ⟨is, many⟩
  · simp only [is]
  · simp only [is]
  · simp only [is, if_pos many]

theorem untouched_setClaimants (cs : List Claimant) (s : State) : Untouched s (setClaimants cs s) :=
  ⟨⟨sameEntries_marked _ _, rfl, rfl, rfl⟩, ⟨rfl, rfl, rfl, rfl⟩, rfl, rfl, rfl, rfl, rfl, rfl, rfl, rfl⟩

theorem aliveBefore_restKept (code : Nat) (s : State) : RestKept s (aliveBefore code s) := by
  obtain ⟨-, -, now, cfg, -, -, -, -, -, trc, mtr, ses, stc, trm, -, pending, -⟩ := aliveBefore_kept code s
  exact ⟨now, pending, cfg, mtr, ses, stc, trc, trm⟩

theorem RestKept.trans {s z q : State} (h : RestKept z q) (k : RestKept s z) : RestKept s q := by
  obtain ⟨a1, a2, a3, a4, a5, a6, a7, a8⟩ := h
  obtain ⟨b1, b2, b3, b4, b5, b6, b7, b8⟩ := k
  exact ⟨a1.trans b1, a2.trans b2, a3.trans b3, a4.trans b4, a5.trans b5, a6.trans b6, a7.trans b7, a8.trans b8⟩

/-- Where the Insulation Unit's work leaves the station untouched and raises no fault, the arrival leaves all but the table, the
shares and the zones' switches (R6). -/
theorem alive_untouched {code : Nat} {take : State → State} {before s y : State} (work : take (aliveBefore code s) = y)
    (kept : Untouched (aliveBefore code s) y) (trc : y.trc = (aliveBefore code s).trc) (flt : y.flt = (aliveBefore code s).flt)
    (vlk : y.vlk = (aliveBefore code s).vlk) : let q := finish false before (handleAlive code take s)
    q.ptb = y.ptb ∧ q.epi = y.epi ∧ RestKept s q ∧ q.ins = s.ins ∧ ZonesKept s.cfg.doseLimit s.htr.zones q.htr.zones ∧
      q.ptb.unlisted = s.ptb.unlisted ∧ RefreshSettled code s.ptb.entries s q := by
  intro q
  obtain ⟨now, cfg, ptb, ins, epi, trc', mtr, ses, stc, -, -, trm, pending, zones, -⟩ := handleAlive_spec code take before s
  obtain ⟨-, unlisted, -, cfg', shu, dmu, htr, ins', -, -, -, -, -, -, dli, -⟩ := aliveBefore_kept code s
  rw [work] at now cfg ptb ins epi trc' mtr ses stc trm pending zones
  have rest : RestKept s y := RestKept.trans ⟨kept.now, kept.pending, kept.cfg, kept.mtr, kept.ses, kept.stc, trc, kept.trm⟩
    (aliveBefore_restKept code s)
  refine ⟨ptb, epi, RestKept.trans ⟨now, pending, cfg, mtr, ses, stc, trc', trm⟩ rest, ins.trans (kept.ins.trans ins'), ?_,
    (congrArg Ptb.unlisted ptb).trans (kept.unlisted.trans unlisted),
    refreshSettled_faultless work rest (kept.shu.trans shu) (kept.dmu.trans dmu) (kept.htr.trans htr) (kept.ins.trans ins')
      (kept.dli.trans dli) rfl kept.toTableKept flt vlk ⟨rfl, rfl, rfl, rfl, rfl⟩⟩
  rw [kept.cfg, kept.htr, cfg', htr] at zones
  exact zones

/-- An arrival of a frame that is no ANNOUNCE, as its refresh and the Insulation Unit's work. -/
theorem event_alive {t : Nat} {h : Header} {p : Payload} {take : State → State} {s : State} (reaches : Reaches h (elapse t s))
    (kind : ∀ x, handleFrame h.code p x = handleAlive h.code take x) :
    event t (arrive h p) s = finish false (elapse t s) (handleAlive h.code take (heard h p (elapse t s))) := by
  rw [event_reaches reaches, kind]

/-- Entries the same but for marks that agree with a set are those entries marked by the set. -/
theorem entries_of_marks {es fs : List PeerEntry} {cs : List Claimant} (same : SameEntries es fs)
    (agree : ∀ e ∈ es, e.claimant = isMember e.code cs) : es = fs.map (fun e => { e with claimant := isMember e.code cs }) := by
  have clear : ∀ gs : List PeerEntry, (gs.map (fun e => { e with claimant := false })).map
      (fun e => { e with claimant := isMember e.code cs }) = gs.map (fun e => { e with claimant := isMember e.code cs }) :=
    fun gs => List.map_map
  have marked : es.map (fun e => { e with claimant := isMember e.code cs }) = es := by
    refine (List.map_congr_left fun e he => ?_).trans (List.map_id es)
    rw [← agree e he]
    rfl
  rw [← marked, ← clear es, same, clear]

theorem lastFault_added {c : FaultCode} {d : FaultDetail} {q : State} {time : Nat} {op : OpState} {f : Flt}
    (h : q.flt = faultAdded { time := time, code := c, detail := d, state := op } f) : LastFault c d q := by
  refine ⟨{ time := time, code := c, detail := d, state := op }, ?_, rfl, rfl⟩
  rw [h, faultAdded]
  exact List.getLast?_concat

/-- The table of an entry that was STALE, refreshed (R6, R14, R15). -/
theorem aliveBefore_table {code : Nat} {s : State} (stale : wasStale code s.ptb.entries = true) : let x := aliveBefore code s
    x.ptb.feeder = effectiveFeeder s.cfg.feederLimit (updateEntry code PeerEntry.refreshed s.ptb.entries) ∧
      x.ptb.mismatch = decide (x.ptb.feeder < s.cfg.feederLimit) := by
  intro x
  rw [show x = _ from aliveBefore_stale stale, refreshFeeder_ptb]
  exact ⟨rfl, rfl⟩

/-- Where the Insulation Unit's work halts the station, the settled table leaves limit and intent at 0 (R6, R163). -/
theorem alive_halted {code : Nat} {take : State → State} {before s y z : State} {claim : Option TxEntry}
    (work : take (aliveBefore code s) = y) (halted : HaltedFrom claim z y) (table : z.ptb = (aliveBefore code s).ptb) :
    let q := finish false before (handleAlive code take s)
    HaltedFrom claim z q ∧ q.epi = y.epi ∧ q.flt = y.flt ∧ q.trc = y.trc ∧
      (wasStale code s.ptb.entries = true →
        q.ptb.feeder = effectiveFeeder s.cfg.feederLimit (updateEntry code PeerEntry.refreshed s.ptb.entries) ∧
        q.ptb.mismatch = decide (q.ptb.feeder < s.cfg.feederLimit) ∧ q.shu.record = computeGrant q.grantInputs) := by
  intro q
  have window := handleAlive_window code take before s
  obtain ⟨now, cfg, ptb, ins, epi, trc, -, -, stc, flt, vlk, trm, pending, -, queue, fresh, stale⟩ :=
    handleAlive_spec code take before s
  rw [work] at now cfg ptb ins epi trc stc flt vlk trm pending queue fresh stale window
  have shares : q.shu.limit = 0 ∧ q.shu.intent = 0 := by
    cases was : wasStale code s.ptb.entries with
    | true => exact (stale was).2 (by rw [halted.op]; decide)
    | false =>
      have shu : q.shu = y.shu := (fresh was).1
      rw [shu]
      exact ⟨halted.limit, halted.intent⟩
  refine ⟨?_, epi, flt, trc, fun was => ?_⟩
  · exact {
      entries := by rw [ptb]; exact halted.entries
      unlisted := by rw [ptb]; exact halted.unlisted
      feeder := by rw [ptb]; exact halted.feeder
      mismatch := by rw [ptb]; exact halted.mismatch
      cfg := cfg.trans halted.cfg
      trm := trm.trans halted.trm
      now := now.trans halted.now
      pending := pending.trans halted.pending
      op := by rw [stc]; exact halted.op
      contactor := fun h => by rw [stc]; exact halted.contactor h
      marks := by rw [MarksAgree, ptb, epi]; exact halted.marks
      fault := by rw [vlk]; exact halted.fault
      leave := (queue .leave (by decide)).trans halted.leave
      claim := (queue .claim (by decide)).trans halted.claim
      finding := (queue .finding (by decide)).trans halted.finding
      ins := ins.trans halted.ins
      limit := shares.1
      intent := shares.2
      window := fun h => window.trans (halted.window h)
      epoch := fun h => (queue .epoch (by decide)).trans (halted.epoch h) }
  · obtain ⟨feeder, mismatch⟩ := aliveBefore_table was
    rw [ptb, halted.feeder, halted.mismatch, table]
    exact ⟨feeder, mismatch, (stale was).1⟩

/-- Settles O47: the sender joins the set; a new member that makes a double fault halts the station. -/
theorem claimArrivalTaken : Obligations.ClaimArrivalTaken := by
  intro t h epoch rb s s0 reaches es joined doubles d
  have run : exec (.claimArrival t h epoch rb) s =
      .next (finish false s0 (handleAlive h.code (takeClaim h.code epoch rb) (heard h (.claim epoch rb) s0))) :=
    congrArg Host.Outcome.next (event_alive (p := .claim epoch rb) reaches fun _ => rfl)
  have takes : s0.stc.op.takesFrames = true := reaches.2.2.2.2
  clear_value s0
  obtain ⟨entries, -, -, -, -, -, -, -, members, -⟩ := aliveBefore_kept h.code (heard h (.claim epoch rb) s0)
  have claimants : (aliveBefore h.code (heard h (.claim epoch rb) s0)).epi = s0.epi := members
  refine ⟨fun out => ?_, fun inside single => ?_, fun inside double => ?_⟩
  · obtain ⟨ptb, epi, rest, ins, zones, unlisted, settled⟩ := alive_untouched (code := h.code)
      (take := takeClaim h.code epoch rb) (before := s0) (s := heard h (.claim epoch rb) s0) (takeClaim_out out) (Untouched.refl _)
      rfl rfl rfl
    exact ⟨_, run, epi.trans claimants, (congrArg Ptb.entries ptb).trans entries, settled, rest, ins, zones, unlisted⟩
  · obtain ⟨ptb, epi, rest, ins, zones, unlisted, settled⟩ := alive_untouched (code := h.code)
      (take := takeClaim h.code epoch rb) (before := s0) (s := heard h (.claim epoch rb) s0)
      (takeClaim_joins inside (by rw [claimJoined, claimants]; exact single)) (untouched_setClaimants _ _) rfl rfl rfl
    refine ⟨_, run, ?_, ?_, rest, ins, zones, unlisted, settled⟩
    · rw [epi, claimJoined_epi, claimants]
    · rw [ptb, claimJoined_entries, claimants, entries]
      rfl
  · have work : takeClaim h.code epoch rb (aliveBefore h.code (heard h (.claim epoch rb) s0)) =
        enterDouble rb (claimJoined h.code epoch rb (aliveBefore h.code (heard h (.claim epoch rb) s0))) :=
      takeClaim_doubles inside (by rw [claimants]; exact double.1) (by rw [claimJoined, claimants]; exact double.2)
    obtain ⟨-, -, now, cfg, -, -, -, ins, -, trc, -, -, stc, trm, -, pending, -⟩ := aliveBefore_kept h.code (heard h (.claim epoch rb) s0)
    obtain ⟨doubled, state, fault, trace, -⟩ := enterDouble_spec (detail := rb)
      (s := claimJoined h.code epoch rb (aliveBefore h.code (heard h (.claim epoch rb) s0)))
      (by show (aliveBefore h.code (heard h (.claim epoch rb) s0)).stc.op.takesFrames = true; rw [stc]; exact takes)
    obtain ⟨halted, epi, flt, trc', table⟩ := alive_halted (before := s0) work (doubled.of_untouched (untouched_setClaimants _ _)) rfl
    have members : (finish false s0 (handleAlive h.code (takeClaim h.code epoch rb) (heard h (.claim epoch rb) s0))).epi =
        { s0.epi with state := .doubleFault, claimants := joined, window := none } := by
      rw [epi, state, claimJoined_epi, claimants]
    refine ⟨_, run, members, ?_, lastFault_added (flt.trans fault), halted.op, halted.limit, halted.intent, table, halted.leave,
      (trc'.trans trace).trans trc, ?_, halted.cfg.trans cfg, halted.trm.trans trm, halted.now.trans now,
      halted.pending.trans pending⟩
    · have agree := halted.marks
      rw [MarksAgree, members] at agree
      exact entries_of_marks (halted.entries.trans (by rw [entries]; rfl)) agree
    · rw [halted.ins, ins]
      split <;> rfl

end Sys2Proof.Proofs
end

section
/-! PROOF. FINDING (R96, R100, R106): the observed epoch's end, the trace entry, the adoption. -/

namespace Sys2Proof.Proofs
open Sys2Proof.Machine

/-- What an adopted finding has done looks at the fields named here, and at nothing else of the two states. -/
theorem findingAdopted_congr {b b' q q' : State} {branch : Option (Option Nat)} {epoch measurer r v : Nat}
    (h : FindingAdopted b branch epoch measurer r v q) (cfg : b'.cfg = b.cfg) (epi : b'.epi = b.epi) (stc : b'.stc = b.stc)
    (trc : b'.trc = b.trc) (now : b'.now = b.now) (flt : b'.flt = b.flt) (mtr : b'.mtr = b.mtr) (ses : b'.ses = b.ses)
    (trm : b'.trm = b.trm) (pending : b'.pending = b.pending) (agree : MarksAgree b' ↔ MarksAgree b)
    (rest : RestKept q q') (bus : q'.ins.busRecord = q.ins.busRecord) (epi' : q'.epi = q.epi) (flt' : q'.flt = q.flt)
    (vlk' : q'.vlk = q.vlk) (agree' : MarksAgree q' ↔ MarksAgree q) (leave : q'.dli.queue.leave = q.dli.queue.leave)
    (claim : q'.dli.queue.claim = q.dli.queue.claim) : FindingAdopted b' branch epoch measurer r v q' := by
  obtain ⟨rnow, rpending, rcfg, rmtr, rses, rstc, rtrc, rtrm⟩ := rest
  have safe : ContactorSafe b' = ContactorSafe b := by rw [ContactorSafe, ContactorSafe, stc]
  have time : clock b' = clock b := by rw [clock, clock, stc]
  unfold FindingAdopted RestKept FaultRaised at h ⊢
  simp only [cfg, epi, stc, trc, now, flt, mtr, ses, trm, pending, propext agree, rnow, rpending, rcfg, rmtr, rses, rstc, rtrc, rtrm,
    bus, epi', flt', vlk', propext agree', leave, claim, safe, time] at h ⊢
  exact h

/-! ## The finding taken (R96, R100) -/

/-- The state in which a finding is entered and adopted: its number kept, the observed epoch that it belongs to ended (R96, R100). -/
def findingHeard (code epoch : Nat) (s : State) : State :=
  if (setLastEpoch epoch s).ins.endsObserved code epoch then endObserved (setLastEpoch epoch s) else setLastEpoch epoch s

/-- The epoch timer started where the station is in SESSION still (R86). -/
def timed (s : State) : State := if s.stc.op = .session then startEpochTimer s else s

theorem takeFinding_out {code epoch result r v : Nat} {s : State} (out : 1 < result ∨ 50000 < r ∨ 10000 < v) :
    takeFinding code epoch result r v s = s := by
  refine if_neg fun inside => ?_
  obtain ⟨h1, h2, h3⟩ : result ≤ 1 ∧ r ≤ 50000 ∧ v ≤ 10000 := of_decide_eq_true inside
  omega

theorem takeFinding_in {code epoch result r v : Nat} {s : State} (h1 : result ≤ 1) (h2 : r ≤ 50000) (h3 : v ≤ 10000) :
    takeFinding code epoch result r v s = timed (if result = 0 then adopt epoch code r v (findingHeard code epoch s)
      else enterTrace epoch code none v (findingHeard code epoch s)) := if_pos (decide_eq_true ⟨h1, h2, h3⟩)

/-- The observed epoch is the one the finding belongs to (R96). -/
abbrev EndsObserved (code epoch : Nat) (i : Ins) : Prop := i.epochState = .observing ∧ i.epochNumber = epoch ∧ i.injector = code

theorem findingHeard_ends {code epoch : Nat} {s : State} (ends : EndsObserved code epoch s.ins) : findingHeard code epoch s = { s with
    ins := { s.ins.setBranchRecord.goIdle with lastEpoch := epoch }, htr := { s.htr with window := false } } :=
  if_pos (decide_eq_true ends)

theorem findingHeard_goes_on {code epoch : Nat} {s : State} (other : ¬ EndsObserved code epoch s.ins) :
    findingHeard code epoch s = { s with ins := { s.ins with lastEpoch := epoch } } :=
  if_neg fun h => other (of_decide_eq_true h)

/-- What the finding's first steps leave, and what they do to the observed epoch (R96, R100). -/
theorem findingHeard_spec (code epoch : Nat) (s : State) : let w := findingHeard code epoch s
    let ends := EndsObserved code epoch s.ins
    w.ins.lastEpoch = epoch ∧ w.ins.busRecord = s.ins.busRecord ∧
      (∀ e m, w.ins.branchFor e m = (if ends then s.ins.setBranchRecord else s.ins).branchFor e m) ∧
      (ends → w.ins.epochState = .idle ∧ w.ins.branchRecord = s.ins.setBranchRecord.branchRecord) ∧
      w.htr = { s.htr with window := if ends then false else s.htr.window } ∧ w.ptb = s.ptb ∧ w.shu = s.shu ∧ w.dmu = s.dmu ∧
      w.dli = s.dli ∧ w.epi = s.epi ∧ w.flt = s.flt ∧ w.vlk = s.vlk ∧ RestKept s w := by
  intro w ends
  by_cases h : ends
  · rw [show w = _ from findingHeard_ends h, if_pos h, if_pos h]
    exact ⟨rfl, rfl, fun _ _ => rfl, fun _ => ⟨rfl, rfl⟩, rfl, rfl, rfl, rfl, rfl, rfl, rfl, rfl, rfl, rfl, rfl, rfl, rfl, rfl, rfl, rfl⟩
  · rw [show w = _ from findingHeard_goes_on h, if_neg h, if_neg h]
    exact ⟨rfl, rfl, fun _ _ => rfl, fun ends => absurd ends h, rfl, rfl, rfl, rfl, rfl, rfl, rfl, rfl, rfl, rfl, rfl, rfl, rfl, rfl, rfl, rfl⟩

/-- The finding entered or adopted without a halt: the station stays, the epoch timer runs anew in SESSION (R86, R100). -/
structure FindingKept (w y : State) : Prop extends TableKept w y, FrameKept w y where
  stc : y.stc = w.stc
  shu : y.shu = w.shu
  dmu : y.dmu = w.dmu
  htr : y.htr = w.htr
  dli : y.dli = w.dli
  mtr : y.mtr = w.mtr
  ses : y.ses = w.ses
  lastEpoch : y.ins.lastEpoch = w.ins.lastEpoch
  epochState : y.ins.epochState = w.ins.epochState
  branchRecord : y.ins.branchRecord = w.ins.branchRecord
  timer : w.stc.op = .session → y.ins.epochTimer = some (w.now + epochDuration w.cfg)

theorem timed_session {s : State} (op : s.stc.op = .session) : timed s = startEpochTimer s := if_pos op

theorem timed_other {s : State} (op : s.stc.op ≠ .session) : timed s = s := if_neg op

theorem findingKept_enterTrace (epoch measurer v : Nat) (w : State) : FindingKept w (timed (enterTrace epoch measurer none v w)) := by
  by_cases op : w.stc.op = .session
  · rw [timed_session (s := enterTrace epoch measurer none v w) op]
    exact ⟨⟨rfl, rfl, rfl, rfl⟩, ⟨rfl, rfl, rfl, rfl⟩, rfl, rfl, rfl, rfl, rfl, rfl, rfl, rfl, rfl, rfl, fun _ => rfl⟩
  · rw [timed_other (s := enterTrace epoch measurer none v w) op]
    exact ⟨⟨rfl, rfl, rfl, rfl⟩, ⟨rfl, rfl, rfl, rfl⟩, rfl, rfl, rfl, rfl, rfl, rfl, rfl, rfl, rfl, rfl, fun h => absurd h op⟩

/-- An adoption leaves the station as it stands, its timer started anew, or halts it (R86, R106, R163). -/
theorem findingKept_adopt {epoch measurer r v : Nat} {w : State} (takes : w.stc.op.takesFrames = true) :
    FindingKept w (timed (adopt epoch measurer r v w)) ∨
      ∃ claim, HaltedFrom claim (adopting epoch measurer r v w) (timed (adopt epoch measurer r v w)) := by
  rcases evaluate_station (epoch := epoch) (measurer := measurer) (r := r) (v := v) (s := adopting epoch measurer r v w) takes
    with kept | ⟨claim, halted⟩
  · refine .inl ?_
    rw [← adopt_eq] at kept
    have last : (adopt epoch measurer r v w).ins.lastEpoch = w.ins.lastEpoch := by rw [kept.ins]; rfl
    have state : (adopt epoch measurer r v w).ins.epochState = w.ins.epochState := by rw [kept.ins]; rfl
    have record : (adopt epoch measurer r v w).ins.branchRecord = w.ins.branchRecord := by rw [kept.ins]; rfl
    by_cases op : (adopt epoch measurer r v w).stc.op = .session
    · rw [timed_session op]
      exact ⟨⟨kept.entries, kept.unlisted, kept.feeder, kept.mismatch⟩, ⟨kept.cfg, kept.trm, kept.now, kept.pending⟩, kept.stc,
        kept.shu, kept.dmu, kept.htr, kept.dli, kept.mtr, kept.ses, last, state, record, fun _ => by
          show some ((adopt epoch measurer r v w).now + epochDuration (adopt epoch measurer r v w).cfg) = _
          rw [kept.now, kept.cfg]
          rfl⟩
    · rw [timed_other op]
      exact ⟨⟨kept.entries, kept.unlisted, kept.feeder, kept.mismatch⟩, ⟨kept.cfg, kept.trm, kept.now, kept.pending⟩, kept.stc,
        kept.shu, kept.dmu, kept.htr, kept.dli, kept.mtr, kept.ses, last, state, record, fun h => absurd (by rw [kept.stc]; exact h) op⟩
  · refine .inr ⟨claim, ?_⟩
    rw [← adopt_eq] at halted
    rw [timed_other (by rw [halted.op]; decide)]
    exact halted

/-- The refresh passed on around a finding that leaves the station as it stands, from the state with the faults, the trace and the
epoch work that it leaves. -/
theorem refreshSettled_finding {code : Nat} {take : State → State} {before s y : State} (work : take (aliveBefore code s) = y)
    (rest : RestKept { s with trc := y.trc } y) (shu : y.shu = s.shu) (dmu : y.dmu = s.dmu) (dli : y.dli = s.dli)
    (htr : y.htr = { s.htr with window := y.htr.window }) (table : TableKept (aliveBefore code s) y) :
    let q := finish false before (handleAlive code take s)
    let f := effectiveFeeder s.cfg.feederLimit (updateEntry code PeerEntry.refreshed s.ptb.entries)
    let stale := wasStale code s.ptb.entries = true
    RefreshSettled code s.ptb.entries { s with
      ins := q.ins, trc := q.trc, flt := q.flt, vlk := q.vlk, htr := { s.htr with window := q.htr.window }
      ptb := { s.ptb with mismatch := if stale then decide (f < s.cfg.feederLimit) else s.ptb.mismatch } } q := by
  intro q f stale
  obtain ⟨-, -, -, ins, -, trc, -, -, -, flt, vlk, -⟩ := handleAlive_spec code take before s
  rw [work] at ins trc flt vlk
  have window : q.htr.window = y.htr.window := (handleAlive_window code take before s).trans (by rw [work])
  change q.ins = y.ins at ins
  change q.trc = y.trc at trc
  change q.flt = y.flt at flt
  change q.vlk = y.vlk at vlk
  refine refreshSettled_alive work ?_ shu dmu ?_ ins.symm dli rfl table (fun fresh => ⟨rfl, ?_, flt.symm, vlk.symm⟩) (fun was => ?_)
  · rw [trc]
    exact rest
  · rw [window]
    exact htr
  · exact if_neg (by show ¬ wasStale code s.ptb.entries = true; rw [fresh]; decide)
  · have marked : ¬ ((if stale then decide (f < s.cfg.feederLimit) else s.ptb.mismatch) = false ∧ f < s.cfg.feederLimit) := by
      rw [if_pos was]
      rintro ⟨no, yes⟩
      rw [decide_eq_true yes] at no
      cases no
    exact ⟨flt.symm.trans (if_neg marked).symm, vlk.symm.trans (if_neg marked).symm⟩

/-- What every finding in range leaves, adopted or not (R6, R14 to R16, R86, R96, R100). -/
def FindingLeft (code epoch : Nat) (s q : State) : Prop :=
  let es := updateEntry code PeerEntry.refreshed s.ptb.entries
  let stale := wasStale code s.ptb.entries = true
  let feeder := effectiveFeeder s.cfg.feederLimit es
  let ends := EndsObserved code epoch s.ins
  q.ins.lastEpoch = epoch ∧ q.cfg = s.cfg ∧ q.trm = s.trm ∧ q.now = s.now ∧ q.pending = s.pending ∧
    q.ptb.unlisted = s.ptb.unlisted ∧ SameEntries q.ptb.entries es ∧
    (stale → q.ptb.feeder = feeder ∧ q.ptb.mismatch = decide (feeder < s.cfg.feederLimit) ∧
      q.shu.record = computeGrant q.grantInputs) ∧
    (q.stc.op ≠ s.stc.op → q.shu.limit = 0 ∧ q.shu.intent = 0) ∧
    (q.stc.op = s.stc.op → q.htr.window = (if ends then false else s.htr.window) ∧
      RefreshSettled code s.ptb.entries { s with
        ins := q.ins, trc := q.trc, flt := q.flt, vlk := q.vlk, htr := { s.htr with window := q.htr.window }
        ptb := { s.ptb with mismatch := if stale then decide (feeder < s.cfg.feederLimit) else s.ptb.mismatch } } q) ∧
    (ends → q.ins.epochState = .idle ∧ q.ins.branchRecord = s.ins.setBranchRecord.branchRecord) ∧
    (q.stc.op = .session → q.ins.epochTimer = some (s.now + epochDuration s.cfg))

theorem findingLeft_kept {code epoch : Nat} {take : State → State} {before s y : State}
    (work : take (aliveBefore code s) = y) (kept : FindingKept (findingHeard code epoch (aliveBefore code s)) y) :
    FindingLeft code epoch s (finish false before (handleAlive code take s)) := by
  obtain ⟨now, cfg, ptb, ins, -, -, -, -, stc, -, -, trm, pending, -, -, -, record⟩ := handleAlive_spec code take before s
  obtain ⟨entries, unlisted, now', cfg', shu', dmu', htr', ins', -, -, mtr', ses', stc', trm', dli', pending', -⟩ :=
    aliveBefore_kept code s
  obtain ⟨last, -, -, ends, htr, table, shu, dmu, dli, -, -, -, rest⟩ := findingHeard_spec code epoch (aliveBefore code s)
  obtain ⟨wnow, wpending, wcfg, wmtr, wses, wstc, -, wtrm⟩ := rest
  have window := handleAlive_window code take before s
  rw [work] at now cfg ptb ins stc trm pending record window
  rw [ins', htr'] at htr
  rw [ins'] at ends
  have op : (finish false before (handleAlive code take s)).stc.op = s.stc.op := by rw [stc, kept.stc, wstc, stc']
  have tables : TableKept (aliveBefore code s) y :=
    ⟨kept.entries.trans (by rw [table]), kept.unlisted.trans (by rw [table]), kept.feeder.trans (by rw [table]),
      kept.mismatch.trans (by rw [table])⟩
  refine ⟨ins ▸ kept.lastEpoch.trans last, cfg.trans (kept.cfg.trans (wcfg.trans cfg')), trm.trans (kept.trm.trans (wtrm.trans trm')),
    now.trans (kept.now.trans (wnow.trans now')), pending.trans (kept.pending.trans (wpending.trans pending')), ?_, ?_, fun was => ?_,
    fun moved => absurd op moved, fun _ => ⟨?_, ?_⟩, fun h => ?_, fun session => ?_⟩
  · rw [ptb, tables.unlisted, unlisted]
  · rw [ptb, ← entries]
    exact tables.entries
  · obtain ⟨feeder, mismatch⟩ := aliveBefore_table was
    rw [ptb, tables.feeder, tables.mismatch, mismatch, feeder]
    exact ⟨rfl, rfl, (record was).1⟩
  · rw [window, kept.htr, htr]
  · refine refreshSettled_finding work ⟨kept.now.trans (wnow.trans now'), kept.pending.trans (wpending.trans pending'),
      kept.cfg.trans (wcfg.trans cfg'), kept.mtr.trans (wmtr.trans mtr'), kept.ses.trans (wses.trans ses'),
      kept.stc.trans (wstc.trans stc'), rfl, kept.trm.trans (wtrm.trans trm')⟩ (kept.shu.trans (shu.trans shu'))
      (kept.dmu.trans (dmu.trans dmu')) (kept.dli.trans (dli.trans dli')) ?_ tables
    rw [kept.htr, htr]
  · rw [ins, kept.epochState, kept.branchRecord]
    exact ends h
  · rw [ins, kept.timer (by rw [wstc, stc', ← op]; exact session), wnow, now', wcfg, cfg']

theorem findingLeft_halted {code epoch r v : Nat} {take : State → State} {before s y : State} {claim : Option TxEntry}
    (work : take (aliveBefore code s) = y) (takes : s.stc.op.takesFrames = true)
    (halted : HaltedFrom claim (adopting epoch code r v (findingHeard code epoch (aliveBefore code s))) y) :
    FindingLeft code epoch s (finish false before (handleAlive code take s)) := by
  obtain ⟨entries, unlisted, now', cfg', -, -, -, ins', -, -, -, -, -, trm', -, pending', -⟩ := aliveBefore_kept code s
  obtain ⟨last, -, -, ends, -, table, -, -, -, -, -, -, wnow, wpending, wcfg, -, -, -, -, wtrm⟩ :=
    findingHeard_spec code epoch (aliveBefore code s)
  obtain ⟨left, -, -, -, tables⟩ := alive_halted (before := before) work halted table
  have op := left.op
  have ins : let i := (finish false before (handleAlive code take s)).ins
      let w := (findingHeard code epoch (aliveBefore code s)).ins
      i.lastEpoch = w.lastEpoch ∧ i.branchRecord = w.branchRecord ∧ (w.epochState = .idle → i.epochState = .idle) := by
    rw [left.ins]
    split
    · exact ⟨rfl, rfl, fun _ => rfl⟩
    · exact ⟨rfl, rfl, id⟩
  obtain ⟨epochs, record, idle⟩ := ins
  rw [ins'] at ends
  refine ⟨epochs.trans last, left.cfg.trans (wcfg.trans cfg'), left.trm.trans (wtrm.trans trm'), left.now.trans (wnow.trans now'),
    left.pending.trans (wpending.trans pending'), left.unlisted.trans ((congrArg Ptb.unlisted table).trans unlisted), ?_,
    fun was => ?_, fun _ => ⟨left.limit, left.intent⟩, fun same => ?_, fun h => ⟨idle (ends h).1, record.trans (ends h).2⟩,
    fun session => ?_⟩
  · rw [← entries, ← table]
    exact left.entries
  · obtain ⟨feeder, mismatch, grant⟩ := tables was
    rw [← feeder]
    exact ⟨rfl, mismatch, grant⟩
  · rw [← same, op] at takes
    cases takes
  · rw [op] at session
    cases session

/-- The faults that the refresh of an entry itself brings (R6, R15). -/
theorem aliveBefore_faults (code : Nat) (s : State) :
    let es := updateEntry code PeerEntry.refreshed s.ptb.entries
    let begins := wasStale code s.ptb.entries = true ∧ MismatchBegins s es
    (aliveBefore code s).flt = (if begins then
      faultAdded (mismatchEntry s (effectiveFeeder s.cfg.feederLimit es) es) s.flt else s.flt) ∧
    (aliveBefore code s).vlk = (if begins then { s.vlk with marks := { s.vlk.marks with fault := true } } else s.vlk) := by
  intro es begins
  by_cases was : wasStale code s.ptb.entries = true
  · obtain ⟨flt, vlk⟩ := refreshFeeder_faults (setEntries es s)
    have same : begins ↔ MismatchBegins s es := and_iff_right was
    rw [aliveBefore_stale was, if_congr same rfl rfl, if_congr same rfl rfl]
    exact ⟨flt, vlk⟩
  · have no : ¬ begins := fun h => was h.1
    rw [aliveBefore_fresh (Bool.eq_false_iff.2 was), if_neg no, if_neg no]
    exact ⟨rfl, rfl⟩

theorem marksAgree_refreshed {code : Nat} {s x : State} (entries : x.ptb.entries = updateEntry code PeerEntry.refreshed s.ptb.entries)
    (epi : x.epi = s.epi) : MarksAgree s ↔ MarksAgree x := by
  have each : ∀ e : PeerEntry, (if e.code = code then e.refreshed else e).claimant = e.claimant ∧
      (if e.code = code then e.refreshed else e).code = e.code := fun e => by split <;> exact ⟨rfl, rfl⟩
  rw [MarksAgree, MarksAgree, entries, epi]
  constructor
  · intro h e he
    obtain ⟨e, mem, rfl⟩ := List.mem_map.1 he
    rw [(each e).1, (each e).2]
    exact h e mem
  · intro h e he
    have := h _ (List.mem_map_of_mem (f := fun e => if e.code = code then e.refreshed else e) he)
    rwa [(each e).1, (each e).2] at this

/-- The epoch timer's start touches the timer alone. -/
theorem timed_kept (s : State) : RestKept s (timed s) ∧ (timed s).ins.busRecord = s.ins.busRecord ∧ (timed s).epi = s.epi ∧
    (timed s).flt = s.flt ∧ (timed s).vlk = s.vlk ∧ (timed s).ptb = s.ptb ∧ (timed s).dli = s.dli := by
  unfold timed
  split <;> exact ⟨⟨rfl, rfl, rfl, rfl, rfl, rfl, rfl, rfl⟩, rfl, rfl, rfl, rfl, rfl, rfl⟩

/-- A finding taken UNSETTLED enters the trace alone (R100, R115). -/
theorem finding_unsettled {code epoch v : Nat} {take : State → State} {before s : State} (work : take (aliveBefore code s) =
      timed (enterTrace epoch code none v (findingHeard code epoch (aliveBefore code s)))) :
    let q := finish false before (handleAlive code take s)
    let branch := (if EndsObserved code epoch s.ins then s.ins.setBranchRecord else s.ins).branchFor epoch code
    q.trc = traceTaken { epoch := epoch, measurer := code, r := none, voltage := v, branch := branch, time := clock s } s.trc ∧
      q.ins.busRecord = s.ins.busRecord ∧ q.epi = s.epi ∧ q.stc = s.stc ∧ q.mtr = s.mtr ∧ q.ses = s.ses ∧
      q.ptb.entries = updateEntry code PeerEntry.refreshed s.ptb.entries ∧ q.flt = (aliveBefore code s).flt ∧
      q.vlk = (aliveBefore code s).vlk := by
  intro q branch
  obtain ⟨-, -, ptb, ins, epi, trc, mtr, ses, stc, flt, vlk, -⟩ := handleAlive_spec code take before s
  obtain ⟨entries, -, -, -, -, -, -, ins', epi', trc', mtr', ses', stc', -⟩ := aliveBefore_kept code s
  obtain ⟨-, bus, record, -, -, table, -, -, -, wepi, wflt, wvlk, -, -, -, wmtr, wses, wstc, wtrc, -⟩ :=
    findingHeard_spec code epoch (aliveBefore code s)
  obtain ⟨⟨-, -, -, kmtr, kses, kstc, ktrc, -⟩, kbus, kepi, kflt, kvlk, kptb, -⟩ :=
    timed_kept (enterTrace epoch code none v (findingHeard code epoch (aliveBefore code s)))
  rw [work] at ptb ins epi trc mtr ses stc flt vlk
  rw [ins'] at record bus
  have time : clock (findingHeard code epoch (aliveBefore code s)) = clock s := by rw [clock, clock, wstc, stc']
  refine ⟨?_, ?_, epi.trans (kepi.trans (wepi.trans epi')), stc.trans (kstc.trans (wstc.trans stc')),
    mtr.trans (kmtr.trans (wmtr.trans mtr')), ses.trans (kses.trans (wses.trans ses')), ?_, flt.trans (kflt.trans wflt),
    vlk.trans (kvlk.trans wvlk)⟩
  · rw [show q.trc = _ from trc.trans ktrc, enterTrace, time, record epoch code]
    show Trc.enter _ (findingHeard code epoch (aliveBefore code s)).trc = _
    rw [wtrc, trc']
    rfl
  · rw [show q.ins = _ from ins, kbus]
    exact bus
  · rw [show q.ptb = _ from ptb, kptb]
    exact (congrArg Ptb.entries table).trans entries

/-- A finding taken ACCEPTED is adopted (R100, R106), from the state with the refresh's own faults. -/
theorem finding_accepted {code epoch r v : Nat} {take : State → State} {before s : State} (d : Dli) (takes : s.stc.op.takesFrames = true)
    (work : take (aliveBefore code s) = timed (adopt epoch code r v (findingHeard code epoch (aliveBefore code s)))) :
    let q := finish false before (handleAlive code take s)
    let branch := (if EndsObserved code epoch s.ins then s.ins.setBranchRecord else s.ins).branchFor epoch code
    FindingAdopted { s with flt := (aliveBefore code s).flt, dli := d } branch epoch code r v q ∧
      ((aliveBefore code s).vlk.marks.fault = true → q.vlk.marks.fault = true) := by
  intro q branch
  obtain ⟨now, cfg, ptb, ins, epi, trc, mtr, ses, stc, flt, vlk, trm, pending, -, queue, -⟩ := handleAlive_spec code take before s
  obtain ⟨entries, -, now', cfg', -, -, -, ins', epi', trc', mtr', ses', stc', trm', -, pending', -⟩ := aliveBefore_kept code s
  obtain ⟨-, -, record, -, -, table, -, -, -, wepi, wflt, wvlk, wnow, wpending, wcfg, wmtr, wses, wstc, wtrc, wtrm⟩ :=
    findingHeard_spec code epoch (aliveBefore code s)
  obtain ⟨⟨know, kpending, kcfg, kmtr, kses, kstc, ktrc, ktrm⟩, kbus, kepi, kflt, kvlk, kptb, kdli⟩ :=
    timed_kept (adopt epoch code r v (findingHeard code epoch (aliveBefore code s)))
  rw [work] at now cfg ptb ins epi trc mtr ses stc flt vlk trm pending queue
  rw [ins'] at record
  have takes' : (findingHeard code epoch (aliveBefore code s)).stc.op.takesFrames = true := by rw [wstc, stc']; exact takes
  have adopted := findingAdopted_adopt (epoch := epoch) (measurer := code) (r := r) (v := v) takes'
  rw [record epoch code] at adopted
  refine ⟨findingAdopted_congr adopted (wcfg.trans cfg').symm (wepi.trans epi').symm (wstc.trans stc').symm (wtrc.trans trc').symm
    (wnow.trans now').symm wflt.symm (wmtr.trans mtr').symm (wses.trans ses').symm (wtrm.trans trm').symm
    (wpending.trans pending').symm (marksAgree_refreshed ((congrArg Ptb.entries table).trans entries) (wepi.trans epi'))
    ⟨now.trans know, pending.trans kpending, cfg.trans kcfg, mtr.trans kmtr, ses.trans kses, stc.trans kstc, trc.trans ktrc,
      trm.trans ktrm⟩ ((congrArg Ins.busRecord ins).trans kbus) (epi.trans kepi) (flt.trans kflt) (vlk.trans kvlk) ?_
    ((queue .leave (by decide)).trans (congrArg (fun d => d.queue.leave) kdli))
    ((queue .claim (by decide)).trans (congrArg (fun d => d.queue.claim) kdli)), fun fault => ?_⟩
  · rw [MarksAgree, MarksAgree, ptb, epi, kptb, kepi]
  · rw [show q.vlk = _ from vlk, kvlk, adopt_eq]
    exact evaluate_fault takes' (by show (findingHeard code epoch (aliveBefore code s)).vlk.marks.fault = true; rw [wvlk]; exact fault)

theorem aliveBefore_fault {code : Nat} {s : State} (was : wasStale code s.ptb.entries = true)
    (begins : MismatchBegins s (updateEntry code PeerEntry.refreshed s.ptb.entries)) :
    (aliveBefore code s).vlk.marks.fault = true := by
  rw [(aliveBefore_faults code s).2, if_pos ⟨was, begins⟩]

theorem findingHeard_takesFrames {code epoch : Nat} {s : State} (takes : s.stc.op.takesFrames = true) :
    (findingHeard code epoch (aliveBefore code s)).stc.op.takesFrames = true := by
  obtain ⟨-, -, -, -, -, -, -, -, -, -, -, -, stc, -⟩ := aliveBefore_kept code s
  obtain ⟨-, -, -, -, -, -, -, -, -, -, -, -, -, -, -, -, -, wstc, -⟩ := findingHeard_spec code epoch (aliveBefore code s)
  rw [wstc, stc]
  exact takes

/-- Whether adopted or not, a finding in range leaves what `FindingLeft` says. -/
theorem findingLeft_take {code epoch result r v : Nat} {before s : State} (takes : s.stc.op.takesFrames = true) (h1 : result ≤ 1)
    (h2 : r ≤ 50000) (h3 : v ≤ 10000) :
    FindingLeft code epoch s (finish false before (handleAlive code (takeFinding code epoch result r v) s)) := by
  have work := takeFinding_in (code := code) (epoch := epoch) (s := aliveBefore code s) h1 h2 h3
  by_cases accepted : result = 0
  · rw [if_pos accepted] at work
    rcases findingKept_adopt (epoch := epoch) (measurer := code) (r := r) (v := v) (findingHeard_takesFrames takes)
      with kept | ⟨claim, halted⟩
    · exact findingLeft_kept work kept
    · exact findingLeft_halted work takes halted
  · rw [if_neg accepted] at work
    exact findingLeft_kept work (findingKept_enterTrace _ _ _ _)

/-- Settles O46: `findingLeft_take` for what every finding in range leaves, `finding_unsettled` for the trace entry alone and
`finding_accepted` for the adoption. -/
theorem findingArrivalTaken : Obligations.FindingArrivalTaken := by
  intro t h epoch result r v s s0 reaches es stale feeder begins f d
  have run : exec (.findingArrival t h epoch result r v) s = .next (finish false s0
      (handleAlive h.code (takeFinding h.code epoch result r v) { s0 with dli := d })) := by
    refine congrArg Host.Outcome.next ((event_alive (p := .finding epoch result r v) reaches fun _ => rfl).trans ?_)
    rw [heard_eq]
  have takes : s0.stc.op.takesFrames = true := reaches.2.2.2.2
  clear_value s0 d
  obtain ⟨entries, -, -, -, -, -, -, -, members, -⟩ := aliveBefore_kept h.code { s0 with dli := d }
  obtain ⟨flt, vlk⟩ := aliveBefore_faults h.code { s0 with dli := d }
  refine ⟨fun out => ?_, fun h1 h2 h3 => ⟨_, run, ?_⟩⟩
  · obtain ⟨ptb, epi, rest, ins, zones, unlisted, settled⟩ := alive_untouched (code := h.code)
      (take := takeFinding h.code epoch result r v) (before := s0) (s := { s0 with dli := d })
      (takeFinding_out out) (Untouched.refl _) rfl rfl rfl
    exact ⟨_, run, (congrArg Ptb.entries ptb).trans entries, ins, epi.trans members, rest, settled, unlisted, zones⟩
  · intro ends branch
    have work := takeFinding_in (code := h.code) (epoch := epoch) (s := aliveBefore h.code { s0 with dli := d }) h1 h2 h3
    obtain ⟨last, cfg, trm, now, pending, unlisted, same, tables, moved, stays, idle, timer⟩ :=
      findingLeft_take (before := s0) (code := h.code) (epoch := epoch) (s := { s0 with dli := d }) takes h1 h2 h3
    refine ⟨last, cfg, trm, now, pending, unlisted, same, fun b => ?_, tables, moved, stays, idle, timer, fun one => ?_, fun zero => ?_⟩
    · have fault := aliveBefore_fault (s := { s0 with dli := d }) b.1 b.2
      by_cases zero : result = 0
      · rw [if_pos zero] at work
        exact (finding_accepted (before := s0) (s := { s0 with dli := d }) s0.dli takes work).2 fault
      · rw [if_neg zero] at work
        obtain ⟨-, -, -, -, -, -, -, -, vlk⟩ := finding_unsettled (before := s0) work
        rw [vlk]
        exact fault
    · rw [if_neg (by rw [one]; decide)] at work
      obtain ⟨trc, bus, epi, stc, mtr, ses, table, flt', vlk'⟩ := finding_unsettled (before := s0) work
      exact ⟨trc, bus, epi, stc, mtr, ses, table, flt'.trans flt, vlk'.trans vlk⟩
    · rw [if_pos zero] at work
      have adopted := (finding_accepted (before := s0) (s := { s0 with dli := d }) s0.dli takes work).1
      rw [flt] at adopted
      exact adopted

end Sys2Proof.Proofs
end

section
/-! PROOF. EPOCH (R95, R98, R99, R100): what the Insulation Unit makes of it, by the epoch state and the codes. -/

namespace Sys2Proof.Proofs
open Sys2Proof.Machine

/-- The state with the epoch work, the sampling window and the transmit queue given. -/
def withEpoch (i : Ins) (window : Bool) (queue : TxQueue) (x : State) : State :=
  { x with ins := i, htr := { x.htr with window := window }, dli := { x.dli with queue := queue } }

theorem clearHeld_eq (b : BranchTrack) : b.clearHeld = heldCleared b := by cases b <;> rfl

theorem sixthCut_eq (b : BranchTrack) : (if b.final then b else .unsettled) = sixthCut b := by cases b <;> rfl

theorem withdrawEpoch_free {x : State} (free : x.dli.attempt = none) : withdrawEpoch x = { x with
    dli := { x.dli with queue := x.dli.queue.set .epoch none } } := by
  unfold withdrawEpoch Dli.withdrawEpoch
  simp only [free]

/-- With no attempt on the line a frame other than ANNOUNCE takes its place in the queue (R147). -/
theorem queueFrame_free {k : FrameKind} {c : TxContent} {x : State} (free : x.dli.attempt = none) (op : x.stc.op ≠ .start)
    (other : k ≠ .announce) :
    queueFrame k c x = { x with dli := { x.dli with queue := x.dli.queue.set k (some { content := c, failed := 0 }) } } := by
  have idle : x.dli.attempting k = false := by rw [Dli.attempting, free]
  unfold queueFrame Dli.queueFrame
  rw [if_neg op, if_neg (by rw [idle]; decide), if_neg (by simp [other])]

theorem reobserve_next {now ta : Nat} {i : Ins} (state : i.epochState = .observing) (more : i.cycleCount < 6) :
    i.reobserve now ta = { i with
      origin := some now, busTrack := none, half := .positive, points := 0, samplesU := [], samplesI := [], discarded := false
      source := .off, lossDeadline := some (now + (12 * i.tHalf + 2 * ta) * 1000), branchTrack := heldCleared i.branchTrack
      cycleCount := i.cycleCount + 1, halfStart := some now } := by
  simp only [Ins.reobserve, Ins.restart, if_pos more, Ins.startCycle, clearHeld_eq, state, Nat.min_eq_left more]
  rfl

theorem reobserve_cut {now ta : Nat} {i : Ins} (last : 6 ≤ i.cycleCount) :
    i.reobserve now ta = { i with
      origin := some now, busTrack := none, half := .positive, points := 0, samplesU := [], samplesI := [], discarded := false
      source := .off, lossDeadline := some (now + (12 * i.tHalf + 2 * ta) * 1000), branchTrack := sixthCut i.branchTrack
      halfStart := none } := by
  simp only [Ins.reobserve, Ins.restart, if_neg (Nat.not_lt.2 last), Ins.stopCycle, sixthCut_eq]

/-! ## The EPOCH taken in SESSION, by the epoch state (R95, R98, R99) -/

/-- The epoch work of an EPOCH taken in SESSION: its number kept, the epoch timer started (R86, R100). -/
def epochNoted (epoch : Nat) (x : State) : Ins := { x.ins with
  lastEpoch := epoch, epochTimer := some (x.now + epochDuration x.cfg) }

/-- The peer's epoch observed from now on (R95). -/
def epochObserved (code epoch half : Nat) (x : State) : Ins := (epochNoted epoch x).observe x.now x.cfg.ta code epoch half

section
variable {code epoch half : Nat} {x : State}

theorem takeEpoch_out (out : half < 1200 ∨ 6000 < half) : takeEpoch code epoch half x = x := by
  refine if_neg fun inside => ?_
  obtain ⟨h1, h2⟩ : 1200 ≤ half ∧ half ≤ 6000 := of_decide_eq_true inside
  omega

theorem takeEpoch_outside (h1 : 1200 ≤ half) (h2 : half ≤ 6000) (op : x.stc.op ≠ .session) :
    takeEpoch code epoch half x = { x with ins := { x.ins with lastEpoch := epoch } } :=
  (if_pos (decide_eq_true ⟨h1, h2⟩)).trans (if_neg op)

theorem takeEpoch_session (h1 : 1200 ≤ half) (h2 : half ≤ 6000) (op : x.stc.op = .session) :
    takeEpoch code epoch half x = epochInSession code epoch half { x with ins := epochNoted epoch x } :=
  (if_pos (decide_eq_true ⟨h1, h2⟩)).trans (if_pos op)

variable (h1 : 1200 ≤ half) (h2 : half ≤ 6000) (op : x.stc.op = .session)
include h1 h2 op

theorem takeEpoch_idle (state : x.ins.epochState = .idle) :
    takeEpoch code epoch half x = withEpoch (epochObserved code epoch half x) false x.dli.queue x := by
  rw [takeEpoch_session h1 h2 op, epochInSession, show (epochNoted epoch x).epochState = .idle from state]
  rfl

theorem takeEpoch_pending (free : x.dli.attempt = none) (state : x.ins.epochState = .pending) :
    takeEpoch code epoch half x = withEpoch (epochObserved code epoch half x) false (x.dli.queue.set .epoch none) x := by
  rw [takeEpoch_session h1 h2 op, epochInSession, show (epochNoted epoch x).epochState = .pending from state]
  dsimp only
  rw [withdrawEpoch_free (by exact free)]
  rfl

theorem takeEpoch_yields (free : x.dli.attempt = none) (state : x.ins.epochState = .injecting) (lower : code < x.cfg.stationCode) :
    takeEpoch code epoch half x = withEpoch (epochObserved code epoch half x) false (x.dli.queue.set .epoch none) x := by
  rw [takeEpoch_session h1 h2 op, epochInSession, show (epochNoted epoch x).epochState = .injecting from state]
  dsimp only
  rw [if_pos lower, withdrawEpoch_free (by exact free)]
  rfl

theorem takeEpoch_keeps (state : x.ins.epochState = .injecting) (higher : x.cfg.stationCode < code) (resend : x.ins.resend = true) :
    takeEpoch code epoch half x =
      withEpoch { (epochNoted epoch x).discardCycle with resend := true } x.htr.window x.dli.queue x := by
  rw [takeEpoch_session h1 h2 op, epochInSession, show (epochNoted epoch x).epochState = .injecting from state]
  dsimp only
  rw [if_neg (Nat.lt_asymm higher), keepInjecting, if_pos (by exact resend), ← resend]
  rfl

theorem takeEpoch_resends (free : x.dli.attempt = none) (state : x.ins.epochState = .injecting)
    (higher : x.cfg.stationCode < code) (quiet : x.ins.resend = false) :
    takeEpoch code epoch half x = withEpoch { (epochNoted epoch x).discardCycle with resend := true } x.htr.window
      (x.dli.queue.set .epoch (some { content := .epoch x.ins.epochNumber x.ins.tHalf, failed := 0 })) x := by
  rw [takeEpoch_session h1 h2 op, epochInSession, show (epochNoted epoch x).epochState = .injecting from state]
  dsimp only
  rw [if_neg (Nat.lt_asymm higher), keepInjecting, if_neg (by show ¬ x.ins.resend = true; rw [quiet]; decide),
    queueFrame_free (by exact free) (by show x.stc.op ≠ .start; rw [op]; decide) (by decide)]
  rfl

theorem takeEpoch_replaces (state : x.ins.epochState = .observing)
    (other : code < x.ins.injector ∨ code = x.ins.injector ∧ epoch ≠ x.ins.epochNumber) :
    takeEpoch code epoch half x = withEpoch (epochObserved code epoch half x) false x.dli.queue x := by
  rw [takeEpoch_session h1 h2 op, epochInSession, show (epochNoted epoch x).epochState = .observing from state]
  dsimp only
  unfold epochWhileObserving
  rcases other with lower | ⟨same, number⟩
  · rw [if_pos (by exact lower)]
    rfl
  · rw [if_neg (by exact same ▸ Nat.lt_irrefl _), if_pos (by exact same), if_neg (by exact number)]
    rfl

theorem takeEpoch_ignored (state : x.ins.epochState = .observing) (higher : x.ins.injector < code) :
    takeEpoch code epoch half x = withEpoch (epochNoted epoch x) x.htr.window x.dli.queue x := by
  rw [takeEpoch_session h1 h2 op, epochInSession, show (epochNoted epoch x).epochState = .observing from state]
  dsimp only
  unfold epochWhileObserving
  rw [if_neg (by exact Nat.lt_asymm higher), if_neg (by exact Nat.ne_of_gt higher)]
  rfl

theorem takeEpoch_again (state : x.ins.epochState = .observing) (same : code = x.ins.injector) (number : epoch = x.ins.epochNumber) :
    takeEpoch code epoch half x = withEpoch ((epochNoted epoch x).reobserve x.now x.cfg.ta) false x.dli.queue x := by
  rw [takeEpoch_session h1 h2 op, epochInSession, show (epochNoted epoch x).epochState = .observing from state]
  dsimp only
  unfold epochWhileObserving
  rw [if_neg (by exact same ▸ Nat.lt_irrefl _), if_pos (by exact same), if_pos (by exact number)]
  rfl

end

/-- The transmit queue after an EPOCH: the own one withdrawn where the station yields, and queued again where it keeps injecting
(R88, R99). -/
def epochQueue (code half : Nat) (x : State) : TxQueue :=
  let taken := 1200 ≤ half ∧ half ≤ 6000 ∧ x.stc.op = .session
  let yields := taken ∧ (x.ins.epochState = .pending ∨ x.ins.epochState = .injecting ∧ code < x.cfg.stationCode)
  let resends := taken ∧ x.ins.epochState = .injecting ∧ x.cfg.stationCode < code ∧ x.ins.resend = false
  if yields then x.dli.queue.set .epoch none
  else if resends then x.dli.queue.set .epoch (some { content := .epoch x.ins.epochNumber x.ins.tHalf, failed := 0 })
  else x.dli.queue

theorem epochQueue_untouched {code half : Nat} {x : State} (h : 1200 ≤ half → half ≤ 6000 → x.stc.op = .session →
    x.ins.epochState ≠ .pending ∧ (x.ins.epochState = .injecting → x.cfg.stationCode < code ∧ x.ins.resend = true)) :
    epochQueue code half x = x.dli.queue := by
  unfold epochQueue
  rw [if_neg, if_neg]
  · rintro ⟨⟨h1, h2, op⟩, state, -, quiet⟩
    have resend := ((h h1 h2 op).2 state).2
    rw [quiet] at resend
    cases resend
  · rintro ⟨⟨h1, h2, op⟩, state | ⟨state, lower⟩⟩
    · exact (h h1 h2 op).1 state
    · exact absurd lower (Nat.lt_asymm ((h h1 h2 op).2 state).1)

/-- Whatever an EPOCH brings, it changes the epoch work, the window and the transmit queue alone (R95, R98 to R100). -/
theorem takeEpoch_form {code epoch half : Nat} {x : State} (free : x.dli.attempt = none) (peer : code ≠ x.cfg.stationCode) :
    ∃ i window, takeEpoch code epoch half x = withEpoch i window (epochQueue code half x) x := by
  by_cases out : half < 1200 ∨ 6000 < half
  · rw [takeEpoch_out out, epochQueue_untouched fun h1 h2 => by omega]
    exact ⟨_, _, rfl⟩
  obtain ⟨h1, h2⟩ : 1200 ≤ half ∧ half ≤ 6000 := by omega
  by_cases op : x.stc.op = .session
  · cases state : x.ins.epochState with
    | idle =>
      rw [takeEpoch_idle h1 h2 op state, epochQueue_untouched fun _ _ _ => by simp [state]]
      exact ⟨_, _, rfl⟩
    | pending =>
      rw [takeEpoch_pending h1 h2 op free state, epochQueue, if_pos ⟨⟨h1, h2, op⟩, .inl state⟩]
      exact ⟨_, _, rfl⟩
    | injecting =>
      rcases Nat.lt_or_gt_of_ne peer with lower | higher
      · rw [takeEpoch_yields h1 h2 op free state lower, epochQueue, if_pos ⟨⟨h1, h2, op⟩, .inr ⟨state, lower⟩⟩]
        exact ⟨_, _, rfl⟩
      · cases resend : x.ins.resend with
        | true =>
          rw [takeEpoch_keeps h1 h2 op state higher resend, epochQueue_untouched fun _ _ _ => by simp [state, higher, resend]]
          exact ⟨_, _, rfl⟩
        | false =>
          rw [takeEpoch_resends h1 h2 op free state higher resend, epochQueue, if_neg, if_pos ⟨⟨h1, h2, op⟩, state, higher, resend⟩]
          · exact ⟨_, _, rfl⟩
          · rintro ⟨-, pending | ⟨-, lower⟩⟩
            · rw [state] at pending
              cases pending
            · exact Nat.lt_asymm higher lower
    | observing =>
      rw [epochQueue_untouched fun _ _ _ => by simp [state]]
      by_cases other : code < x.ins.injector ∨ code = x.ins.injector ∧ epoch ≠ x.ins.epochNumber
      · rw [takeEpoch_replaces h1 h2 op state other]
        exact ⟨_, _, rfl⟩
      · by_cases higher : x.ins.injector < code
        · rw [takeEpoch_ignored h1 h2 op state higher]
          exact ⟨_, _, rfl⟩
        · have same : code = x.ins.injector := by omega
          rw [takeEpoch_again h1 h2 op state same (Classical.not_not.1 fun number => other (.inr ⟨same, number⟩))]
          exact ⟨_, _, rfl⟩
  · rw [takeEpoch_outside h1 h2 op, epochQueue_untouched fun _ _ session => absurd session op]
    exact ⟨_, _, rfl⟩

/-! ## The arrival passed on -/

/-- An arrival whose work changes the epoch work, the window and the queue alone (R6, R100). -/
theorem alive_withEpoch {code : Nat} {take : State → State} {before s : State} {i : Ins} {window : Bool} {queue : TxQueue}
    (work : take (aliveBefore code s) = withEpoch i window queue (aliveBefore code s)) :
    let q := finish false before (handleAlive code take s)
    q.ins = i ∧ q.htr.window = window ∧ q.dli.queue.epoch = queue.epoch ∧
      q.ptb.entries = updateEntry code PeerEntry.refreshed s.ptb.entries ∧ q.ptb.unlisted = s.ptb.unlisted ∧ q.epi = s.epi ∧
      RestKept s q ∧ ZonesKept s.cfg.doseLimit s.htr.zones q.htr.zones ∧
      RefreshSettled code s.ptb.entries { s with
        ins := q.ins, htr := { s.htr with window := q.htr.window }, dli := { s.dli with queue := queue } } q := by
  intro q
  obtain ⟨now, cfg, ptb, ins, epi, trc, mtr, ses, stc, -, -, trm, pending, zones, queues, -⟩ := handleAlive_spec code take before s
  obtain ⟨entries, unlisted, -, cfg', shu, dmu, htr, -, epi', -, -, -, -, -, dli, -⟩ := aliveBefore_kept code s
  have window' : q.htr.window = window := (handleAlive_window code take before s).trans (by rw [work]; rfl)
  rw [work] at now cfg ptb ins epi trc mtr ses stc trm pending zones queues
  have rest : RestKept s (withEpoch i window queue (aliveBefore code s)) := aliveBefore_restKept code s
  refine ⟨ins, window', queues .epoch (by decide), (congrArg Ptb.entries ptb).trans entries,
    (congrArg Ptb.unlisted ptb).trans unlisted, epi.trans epi', RestKept.trans ⟨now, pending, cfg, mtr, ses, stc, trc, trm⟩ rest, ?_, ?_⟩
  · have kept : ZonesKept (aliveBefore code s).cfg.doseLimit (aliveBefore code s).htr.zones q.htr.zones := zones
    rw [cfg', htr] at kept
    exact kept
  · refine refreshSettled_faultless work rest shu dmu ?_ ins.symm ?_ rfl ⟨rfl, rfl, rfl, rfl⟩ rfl rfl ⟨rfl, rfl, rfl, rfl, rfl⟩
    · rw [window', ← htr]
      rfl
    · rw [← dli]
      rfl

/-- Settles O45: `takeEpoch_form` for what every EPOCH leaves, and the equation of `takeEpoch` for each epoch state and code. -/
theorem epochArrivalTaken : Obligations.EpochArrivalTaken := by
  intro t h epoch half s s0 reaches
  have run : exec (.epochArrival t h epoch half) s = .next (finish false s0 (handleAlive h.code (takeEpoch h.code epoch half) { s0 with
      dli := { s0.dli with framerFrom := s0.now + 192, gapFrom := idleAfter s0.now (arrivedFrame h (.epoch epoch half)).lineBits } })) := by
    refine congrArg Host.Outcome.next ((event_alive (p := .epoch epoch half) reaches fun _ => rfl).trans ?_)
    rw [heard_eq]
  obtain ⟨free, -, -, peer, -⟩ := reaches
  clear_value s0
  generalize idleAfter s0.now (arrivedFrame h (.epoch epoch half)).lineBits = gap at run ⊢
  obtain ⟨y, at_y⟩ : ∃ y : State, y = { s0 with dli := { s0.dli with framerFrom := s0.now + 192, gapFrom := gap } } := ⟨_, rfl⟩
  obtain ⟨-, -, now, cfg, -, -, htr, ins, -, -, -, -, stc, -, dli, -⟩ := aliveBefore_kept h.code y
  obtain ⟨x, is⟩ : ∃ x, aliveBefore h.code y = x := ⟨_, rfl⟩
  rw [is, at_y] at now cfg htr ins stc dli
  have free' : x.dli.attempt = none := (congrArg Dli.attempt dli).trans free
  have line : x.dli.queue = s0.dli.queue := by rw [dli]
  have noted : epochNoted epoch x = { s0.ins with lastEpoch := epoch, epochTimer := some (s0.now + epochDuration s0.cfg) } := by
    rw [epochNoted, now, cfg, ins]
  have observed : epochObserved h.code epoch half x =
      (({ s0.ins with lastEpoch := epoch, epochTimer := some (s0.now + epochDuration s0.cfg) } : Ins).observe s0.now s0.cfg.ta
        h.code epoch half) := by rw [epochObserved, noted, now, cfg]
  have asked : epochQueue h.code half x = epochQueue h.code half s0 := by
    simp only [epochQueue, line, ins, stc, cfg]
  rw [← at_y] at run
  have effect : ∀ {i window queue}, takeEpoch h.code epoch half x = withEpoch i window queue x → _ := fun work =>
    alive_withEpoch (before := s0) (code := h.code) (take := takeEpoch h.code epoch half) (s := y) (by rw [is]; exact work)
  obtain ⟨i, window, form⟩ := takeEpoch_form (epoch := epoch) (half := half) free' (by rw [cfg]; exact peer)
  obtain ⟨-, -, -, entries, unlisted, epi, rest, zones, settled⟩ := effect form
  generalize finish false s0 (handleAlive h.code (takeEpoch h.code epoch half) y) = r at run effect entries unlisted epi rest zones settled
  subst at_y
  refine ⟨r, run, entries, unlisted, epi, rest, zones, ?_, fun out => ?_, fun h1 h2 op => ?_, fun h1 h2 op => ?_⟩
  · intro taken yields resends queue
    rw [asked] at settled
    exact settled
  · obtain ⟨left, closed, -⟩ := effect (i := x.ins) (window := x.htr.window) (queue := x.dli.queue) (takeEpoch_out out)
    exact ⟨left.trans ins, closed.trans (congrArg Htr.window htr)⟩
  · obtain ⟨left, closed, -⟩ := effect (i := { x.ins with lastEpoch := epoch }) (window := x.htr.window) (queue := x.dli.queue)
      (takeEpoch_outside h1 h2 (by rw [stc]; exact op))
    exact ⟨left.trans (by rw [ins]), closed.trans (congrArg Htr.window htr)⟩
  · have op' : x.stc.op = .session := (congrArg Stc.op stc).trans op
    have state : x.ins.epochState = s0.ins.epochState := congrArg Ins.epochState ins
    have code : x.cfg.stationCode = s0.cfg.stationCode := congrArg Settings.stationCode cfg
    have injector : x.ins.injector = s0.ins.injector := congrArg Ins.injector ins
    have number : x.ins.epochNumber = s0.ins.epochNumber := congrArg Ins.epochNumber ins
    have window : x.htr.window = s0.htr.window := congrArg Htr.window htr
    intro i observing
    refine ⟨fun idle => ?_, fun pending => ?_, fun injecting lower => ?_, fun injecting higher => ?_, fun watched other => ?_,
      fun watched higher => ?_, fun watched same again => ?_⟩
    · exact (effect (takeEpoch_idle h1 h2 op' (state.trans idle))).1.trans observed
    · obtain ⟨left, -, queue, -⟩ := effect (takeEpoch_pending h1 h2 op' free' (state.trans pending))
      exact ⟨left.trans observed, queue⟩
    · obtain ⟨left, closed, queue, -⟩ := effect (takeEpoch_yields h1 h2 op' free' (state.trans injecting) (by rw [code]; exact lower))
      exact ⟨left.trans observed, queue, closed⟩
    · have holds : ({ (epochNoted epoch x).discardCycle with resend := true } : Ins) = { i with
          discarded := true, busTrack := none, branchTrack := heldCleared s0.ins.branchTrack, resend := true } := by
        rw [noted, Ins.discardCycle, clearHeld_eq]
        rfl
      have above : x.cfg.stationCode < h.code := by rw [code]; exact higher
      cases resend : x.ins.resend with
      | true =>
        obtain ⟨left, closed, -⟩ := effect (takeEpoch_keeps h1 h2 op' (state.trans injecting) above resend)
        exact ⟨left.trans holds, closed.trans window, fun quiet =>
          Bool.noConfusion (resend.symm.trans ((congrArg Ins.resend ins).trans quiet))⟩
      | false =>
        obtain ⟨left, closed, queue, -⟩ := effect (takeEpoch_resends h1 h2 op' free' (state.trans injecting) above resend)
        exact ⟨left.trans holds, closed.trans window, fun _ => queue.trans (by rw [ins]; rfl)⟩
    · obtain ⟨left, closed, -⟩ := effect (takeEpoch_replaces h1 h2 op' (state.trans watched) (by rw [injector, number]; exact other))
      exact ⟨left.trans observed, closed⟩
    · obtain ⟨left, closed, -⟩ := effect (takeEpoch_ignored h1 h2 op' (state.trans watched) (by rw [injector]; exact higher))
      exact ⟨left.trans noted, closed.trans window⟩
    · obtain ⟨left, closed, -⟩ := effect (takeEpoch_again h1 h2 op' (state.trans watched) (same.trans injector.symm)
        (again.trans number.symm))
      rw [noted, now, cfg] at left
      exact ⟨closed, fun more => left.trans (reobserve_next watched more), fun last => left.trans (reobserve_cut last)⟩

end Sys2Proof.Proofs
end

section
/-! PROOF. The end of an own epoch (R94, R101, R102), and the frames sent (R17, R38, R88, R99, R151). -/

namespace Sys2Proof.Proofs
open Sys2Proof.Machine

/-! ## The end of an own epoch (R94) -/

/-- The first steps of an own epoch's end (R94 steps 1 to 3): the branch record, a queued EPOCH withdrawn, the window closed, the
source off, the FINDING queued. -/
def epochClosed (c : TxContent) (s : State) : State :=
  let s1 := { s with ins := s.ins.setBranchRecord }
  let s2 := closeWindow (if s1.ins.resend then withdrawEpoch s1 else s1)
  queueFrame .finding c { s2 with ins := { s2.ins with source := .off, resend := false } }

/-- The last step of an own epoch's end (R94 step 6). -/
def epochEnded (s : State) : State := if s.stc.op = .session then idleAndTimer s else s

theorem endOwnEpoch_accepted (x : Nat) (s : State) : endOwnEpoch (some x) s = epochEnded
    (adopt s.ins.epochNumber s.cfg.stationCode x (sampledVoltage s)
      (epochClosed (.finding s.ins.epochNumber 0 x (sampledVoltage s)) s)) := rfl

/-- The ins, window and line of an own epoch's first steps; all else stands. -/
theorem epochClosed_spec {c : TxContent} {s : State} (session : s.stc.op = .session) : let z := epochClosed c s
    z = { s with ins := { s.ins.setBranchRecord with source := .off, resend := false }, htr := { s.htr with window := false }
                 dli := z.dli } ∧
      z.dli.queue.finding = some { content := c, failed := 0 } ∧ (s.ins.resend = true → z.dli.queue.epoch = none) := by
  intro z
  have queued : ∀ d : Dli, (d.queueFrame s.stc.op .finding c).queue.finding = some { content := c, failed := 0 } := fun d =>
    queueFrame_queued s.stc.op .finding c d (by rw [session]; decide) (by decide)
  by_cases resend : s.ins.resend = true
  · have eq : z = { s with ins := { s.ins.setBranchRecord with source := .off, resend := false }, htr := { s.htr with window := false }
                           dli := (s.dli.withdrawEpoch s.now).queueFrame s.stc.op .finding c } := by
      show epochClosed c s = _
      rw [epochClosed, if_pos (by exact resend)]
      rfl
    rw [eq]
    refine ⟨rfl, queued _, fun _ => ?_⟩
    exact (queueFrame_others s.stc.op .finding .epoch c _ (by decide)).trans (by rw [withdrawEpoch_queue]; rfl)
  · have eq : z = { s with ins := { s.ins.setBranchRecord with source := .off, resend := false }, htr := { s.htr with window := false }
                           dli := s.dli.queueFrame s.stc.op .finding c } := by
      show epochClosed c s = _
      rw [epochClosed, if_neg (by exact resend)]
      rfl
    rw [eq]
    exact ⟨rfl, queued _, fun yes => absurd yes resend⟩

theorem endOwnEpoch_unsettled (s : State) : endOwnEpoch none s = epochEnded (raise .insUnsettled (.number s.ins.unsettledDetail)
    (enterTrace s.ins.epochNumber s.cfg.stationCode none (sampledVoltage s)
      (epochClosed (.finding s.ins.epochNumber 1 0 (sampledVoltage s)) s))) := by
  unfold endOwnEpoch epochEnded epochClosed
  by_cases resend : s.ins.setBranchRecord.resend = true
  · simp only [if_pos resend]
    rfl
  · simp only [if_neg resend]
    rfl

/-- The state in which an own epoch ends, as it differs from the state `b` of the event: the epoch work, the line and the window. -/
structure EpochEnding (b : State) (track : BranchTrack) (s : State) : Prop where
  same : s = { b with ins := s.ins, dli := s.dli, htr := { b.htr with window := s.htr.window } }
  number : s.ins.epochNumber = b.ins.epochNumber
  injector : s.ins.injector = b.ins.injector
  lastEpoch : s.ins.lastEpoch = b.ins.lastEpoch
  busRecord : s.ins.busRecord = b.ins.busRecord
  track : trackResult s.ins.branchTrack = trackResult track

theorem setBranchRecord_record (i : Ins) : i.setBranchRecord.branchRecord =
    some { epoch := i.epochNumber, injector := i.injector, result := trackResult i.branchTrack } := by
  unfold Ins.setBranchRecord
  cases i.branchTrack <;> rfl

/-- The state that the own finding is taken in: the first steps done, the finding entered, and adopted where it is ACCEPTED. -/
structure EpochFound (b : State) (track : BranchTrack) (c : TxContent) (w : State) : Prop where
  same : w = { b with ins := w.ins, dli := w.dli, trc := w.trc, htr := { b.htr with window := false } }
  record : w.ins.branchRecord = some { epoch := b.ins.epochNumber, injector := b.ins.injector, result := trackResult track }
  lastEpoch : w.ins.lastEpoch = b.ins.lastEpoch
  finding : w.dli.queue.finding = some { content := c, failed := 0 }

/-- What an own epoch's end leaves, once its finding has left the station untouched or halted it (R94, R102). -/
theorem ownEpochEnded_of {b w y : State} {track : BranchTrack} {c : TxContent} (found : EpochFound b track c w)
    (session : b.stc.op = .session) (station : Untouched w y ∨ ∃ claim, HaltedFrom claim w y) :
    let q := finish false b (epochEnded y)
    OwnEpochEnded b track c q ∧ (w.dli.queue.epoch = none → q.dli.queue.epoch = none) := by
  intro q
  obtain ⟨same, record, last, finding⟩ := found
  have op : w.stc.op = .session := by rw [same]; exact session
  rcases station with kept | ⟨claim, halted⟩
  · have eq : q = finish false b (idleAndTimer y) := by
      show finish false b (epochEnded y) = _
      rw [epochEnded, if_pos (by rw [kept.stc]; exact op)]
    obtain ⟨zones, window, -⟩ := finish_kept false b (idleAndTimer y)
    rw [← eq] at zones window
    have shu : q.shu = b.shu := by rw [eq]; exact kept.shu.trans (by rw [same])
    have dmu : q.dmu = b.dmu := by rw [eq]; exact kept.dmu.trans (by rw [same])
    have stc : q.stc.op = .session := by rw [eq]; exact (congrArg Stc.op kept.stc).trans op
    have dli : q.dli = w.dli := by rw [eq]; exact kept.dli
    have ins : q.ins = w.ins.goIdle.startTimer b.now b.cfg := by
      rw [eq]
      show y.ins.goIdle.startTimer y.now y.cfg = _
      rw [kept.ins, kept.now, kept.cfg, same]
    refine ⟨⟨?_, ?_, ?_, ?_, ?_, ?_, ?_, ?_, ?_, by rw [dli]; exact finding, ?_, ?_, ?_, fun _ => ⟨shu, dmu, ?_⟩, ?_, ?_, ?_, ?_⟩,
      fun no => by rw [dli]; exact no⟩
    · rw [ins]; exact record
    · rw [ins]; rfl
    · rw [ins]; rfl
    · rw [ins]; rfl
    · rw [ins]; rfl
    · rw [ins]; rfl
    · rw [ins]; rfl
    · rw [ins]; exact last
    · rw [ins, if_pos stc]; rfl
    · rw [window]; exact (congrArg Htr.window kept.htr).trans (by rw [same])
    · rw [eq]; exact kept.entries.trans (by rw [same])
    · rw [eq]; exact kept.unlisted.trans (by rw [same])
    · have from_y : ZonesKept y.cfg.doseLimit y.htr.zones q.htr.zones := zones
      rw [kept.cfg, kept.htr, same] at from_y
      exact from_y
    · rw [eq]; exact kept.cfg.trans (by rw [same])
    · rw [eq]; exact kept.trm.trans (by rw [same])
    · rw [eq]; exact kept.now.trans (by rw [same])
    · rw [eq]; exact kept.pending.trans (by rw [same])
  · have eq : q = y := by
      show finish false b (epochEnded y) = _
      rw [epochEnded, if_neg (by rw [halted.op]; decide), finish_outside (by rw [halted.op]; decide)]
    have ins : q.ins = w.ins.leaveSession := by rw [eq, halted.ins, if_pos op]
    have off : q.stc.op ≠ .session := by rw [eq, halted.op]; decide
    refine ⟨⟨?_, ?_, ?_, ?_, ?_, ?_, ?_, ?_, ?_, ?_, ?_, ?_, ?_, fun h => absurd h off, ?_, ?_, ?_, ?_⟩, fun _ => ?_⟩
    · rw [ins]; exact record
    · rw [ins]; rfl
    · rw [ins]; rfl
    · rw [ins]; rfl
    · rw [ins]; rfl
    · rw [ins]; rfl
    · rw [ins]; rfl
    · rw [ins]; exact last
    · rw [ins, if_neg off]; rfl
    · rw [eq]; exact halted.finding.trans finding
    · rw [eq]; exact halted.window op
    · rw [eq]; exact halted.entries.trans (by rw [same])
    · rw [eq]; exact halted.unlisted.trans (by rw [same])
    · rw [eq]; exact halted.cfg.trans (by rw [same])
    · rw [eq]; exact halted.trm.trans (by rw [same])
    · rw [eq]; exact halted.now.trans (by rw [same])
    · rw [eq]; exact halted.pending.trans (by rw [same])
    · rw [eq]; exact halted.epoch op

/-- The last step and the event's tail touch the epoch work and the heater alone. -/
theorem epochEnded_kept (b y : State) : let q := finish false b (epochEnded y)
    RestKept y q ∧ q.ins.busRecord = y.ins.busRecord ∧ q.epi = y.epi ∧ q.flt = y.flt ∧ q.vlk = y.vlk ∧ q.ptb = y.ptb ∧
      q.dli = y.dli := by
  unfold epochEnded
  split <;> exact ⟨⟨rfl, rfl, rfl, rfl, rfl, rfl, rfl, rfl⟩, rfl, rfl, rfl, rfl, rfl, rfl⟩

theorem branchFor_recorded {i : Ins} {n injector code : Nat} {result : Option Nat}
    (record : i.branchRecord = some { epoch := n, injector := injector, result := result }) :
    i.branchFor n code = if injector = code then some result else none := by
  rw [Ins.branchFor, record]
  simp

section
variable {b s : State} {track : BranchTrack} (ending : EpochEnding b track s)
include ending

theorem EpochEnding.voltage : sampledVoltage s = sampledVoltage b := by
  rw [sampledVoltage, ending.same]
  rfl

variable (session : b.stc.op = .session) (c : TxContent)
include session

theorem EpochEnding.closed_found : EpochFound b track c (epochClosed c s) ∧ (epochClosed c s).trc = b.trc ∧
    (epochClosed c s).ins.busRecord = b.ins.busRecord := by
  obtain ⟨same, finding, -⟩ := epochClosed_spec (c := c) (s := s) (by rw [ending.same]; exact session)
  have ins := congrArg State.ins same
  refine ⟨⟨?_, ?_, ?_, finding⟩, ?_, ?_⟩
  · rw [same, ending.same]
  · rw [ins]
    refine (setBranchRecord_record s.ins).trans ?_
    rw [ending.number, ending.injector, ending.track]
  · rw [ins]
    exact ending.lastEpoch
  · rw [same, ending.same]
  · rw [ins]
    exact ending.busRecord

theorem EpochEnding.epoch_withdrawn (resend : s.ins.resend = true) : (epochClosed c s).dli.queue.epoch = none :=
  (epochClosed_spec (c := c) (s := s) (by rw [ending.same]; exact session)).2.2 resend

end

theorem EpochFound.clock {b w : State} {track : BranchTrack} {c : TxContent} (found : EpochFound b track c w) : clock w = clock b := by
  rw [Machine.clock, Machine.clock, found.same]

/-- The own finding raised or adopted, from the state after the first steps (R94 steps 4 and 5). -/
theorem EpochFound.enter {b z : State} {track : BranchTrack} {c : TxContent} (found : EpochFound b track c z) (trc : z.trc = b.trc)
    (r : Option Nat) (v : Nat) : let w := enterTrace b.ins.epochNumber b.cfg.stationCode r v z
    EpochFound b track c w ∧ w.trc = traceTaken { epoch := b.ins.epochNumber, measurer := b.cfg.stationCode, r := r, voltage := v
                                                  branch := ownBranch b track, time := Machine.clock b } b.trc := by
  intro w
  have entered : w.trc = Trc.enter { epoch := b.ins.epochNumber, measurer := b.cfg.stationCode, r := r, voltage := v
                                     branch := ownBranch b track, time := Machine.clock b } z.trc := by
    show Trc.enter _ z.trc = _
    rw [branchFor_recorded found.record, found.clock]
    rfl
  refine ⟨⟨?_, found.record, found.lastEpoch, found.finding⟩, ?_⟩
  · have framed : ∀ t : Trc, { z with trc := t } =
        { b with ins := z.ins, dli := z.dli, trc := t, htr := { b.htr with window := false } } := fun t => by rw [found.same]
    exact framed _
  · rw [entered, trc]
    rfl

/-- INS_UNSETTLED raised: the station untouched under the continue policy, halted under the stop policy (R101, R164). -/
theorem raise_unsettled_station {d : FaultDetail} {w : State} (takes : w.stc.op.takesFrames = true) :
    let y := raise .insUnsettled d w
    (w.cfg.policies.insUnsettled = false → y = recordFault .insUnsettled d w) ∧
      (w.cfg.policies.insUnsettled = true → HaltedFrom w.dli.queue.claim w y) ∧
      (Untouched w y ∨ ∃ claim, HaltedFrom claim w y) ∧ y.ins.busRecord = w.ins.busRecord ∧ y.epi.onset = w.epi.onset := by
  have continues : w.cfg.policies.insUnsettled = false → raise .insUnsettled d w = recordFault .insUnsettled d w :=
    fun policy => raise_continue d policy
  have halts : w.cfg.policies.insUnsettled = true → HaltedFrom w.dli.queue.claim w (raise .insUnsettled d w) :=
    fun policy => raise_haltedFrom d policy takes
  refine ⟨continues, halts, ?_⟩
  cases policy : w.cfg.policies.insUnsettled with
  | false =>
    rw [continues policy]
    exact ⟨.inl ⟨⟨rfl, rfl, rfl, rfl⟩, ⟨rfl, rfl, rfl, rfl⟩, rfl, rfl, rfl, rfl, rfl, rfl, rfl, rfl⟩, rfl, rfl⟩
  | true =>
    obtain ⟨-, -, -, epi, -, -, -, -, -, -, -, -, bus⟩ := raise_halts (c := .insUnsettled) d (s := w) policy takes
    exact ⟨.inr ⟨_, halts policy⟩, bus, by rw [epi]; rfl⟩

/-- An own epoch ended UNSETTLED (R94, R101, R115). -/
theorem unsettled_ended {b s : State} {track : BranchTrack} (ending : EpochEnding b track s) (session : b.stc.op = .session) :
    let q := finish false b (endOwnEpoch none s)
    EpochUnsettled b track s.ins.unsettledDetail q ∧ (s.ins.resend = true → q.dli.queue.epoch = none) ∧
      (b.cfg.policies.insUnsettled = false →
        q.dli = (epochClosed (.finding s.ins.epochNumber 1 0 (sampledVoltage s)) s).dli) := by
  intro q
  obtain ⟨found, trc, bus⟩ := ending.closed_found session (.finding s.ins.epochNumber 1 0 (sampledVoltage s))
  have withdrawn := ending.epoch_withdrawn session (.finding s.ins.epochNumber 1 0 (sampledVoltage s))
  have eq : q = finish false b (epochEnded (raise .insUnsettled (.number s.ins.unsettledDetail)
      (enterTrace s.ins.epochNumber s.cfg.stationCode none (sampledVoltage s)
        (epochClosed (.finding s.ins.epochNumber 1 0 (sampledVoltage s)) s)))) := by rw [← endOwnEpoch_unsettled]
  have code : s.cfg.stationCode = b.cfg.stationCode := by rw [ending.same]
  rw [ending.voltage, code, ending.number] at eq
  rw [ending.voltage, ending.number] at found trc bus withdrawn ⊢
  generalize epochClosed (.finding b.ins.epochNumber 1 0 (sampledVoltage b)) s = z at *
  obtain ⟨entered, taken⟩ := found.enter trc none (sampledVoltage b)
  have line : (enterTrace b.ins.epochNumber b.cfg.stationCode none (sampledVoltage b) z).dli = z.dli := rfl
  have record : (enterTrace b.ins.epochNumber b.cfg.stationCode none (sampledVoltage b) z).ins = z.ins := rfl
  generalize enterTrace b.ins.epochNumber b.cfg.stationCode none (sampledVoltage b) z = w at *
  have stc : w.stc = b.stc := by rw [entered.same]
  have cfg : w.cfg = b.cfg := by rw [entered.same]
  obtain ⟨continues, halts, station, busKept, onset⟩ := raise_unsettled_station (d := .number s.ins.unsettledDetail) (w := w)
    (by rw [stc, session]; rfl)
  have raised := faultRaised_raise .insUnsettled (.number s.ins.unsettledDetail) w
  have traced : (raise .insUnsettled (.number s.ins.unsettledDetail) w).trc = w.trc := raise_trc _ _ _
  obtain ⟨ended, lost⟩ := ownEpochEnded_of entered session station
  generalize raise .insUnsettled (.number s.ins.unsettledDetail) w = y at *
  obtain ⟨⟨now, pending, cfg', mtr, ses, stc', trc', trm⟩, busRecord, epi, flt, vlk, ptb, dli⟩ := epochEnded_kept b y
  rw [← eq] at ended lost now pending cfg' mtr ses stc' trc' trm busRecord epi flt vlk ptb dli
  refine ⟨⟨ended, ?_, ?_, ?_, ?_, fun policy => ?_, fun policy => ?_⟩, fun resend => lost (by rw [line]; exact withdrawn resend),
    fun policy => ?_⟩
  · rw [busRecord, busKept, record, bus]
  · rw [trc', traced, taken]
  · rw [FaultRaised, flt, vlk]
    exact faultRaised_congr (entered.clock).symm (by rw [stc]) (by rw [entered.same]) raised
  · rw [epi, onset, entered.same]
  · have same := continues (by rw [cfg]; exact policy)
    rw [same] at now pending cfg' mtr ses stc' trm epi ptb
    rw [entered.same] at now pending cfg' mtr ses stc' trm epi ptb
    exact ⟨⟨now, pending, cfg', mtr, ses, stc', rfl, trm⟩, epi, ptb⟩
  · have halted := halts (by rw [cfg]; exact policy)
    exact ⟨(congrArg Stc.op stc').trans halted.op,
      (congrArg Stc.contactor stc').trans (halted.contactor (.inl (by rw [stc]; exact session))),
      (congrArg (fun d => d.queue.leave) dli).trans halted.leave⟩
  · rw [dli, continues (by rw [cfg]; exact policy), ← line]
    rfl

theorem EpochFound.adopting {b z : State} {track : BranchTrack} {c : TxContent} (found : EpochFound b track c z) (x v : Nat) :
    EpochFound b track c (adopting b.ins.epochNumber b.cfg.stationCode x v z) := by
  refine ⟨?_, found.record, found.lastEpoch, found.finding⟩
  have framed : ∀ (t : Trc) (i : Ins), { z with trc := t, ins := i } =
      { b with ins := i, dli := z.dli, trc := t, htr := { b.htr with window := false } } := fun t i => by rw [found.same]
  exact framed _ _

/-- An own epoch ended ACCEPTED: its finding adopted (R94, R106). -/
theorem accepted_ended {b s : State} {track : BranchTrack} {x : Nat} (ending : EpochEnding b track s) (session : b.stc.op = .session) :
    let q := finish false b (endOwnEpoch (some x) s)
    EpochAccepted b track x q ∧ (s.ins.resend = true → q.dli.queue.epoch = none) := by
  intro q
  obtain ⟨found, trc, -⟩ := ending.closed_found session (.finding s.ins.epochNumber 0 x (sampledVoltage s))
  have withdrawn := ending.epoch_withdrawn session (.finding s.ins.epochNumber 0 x (sampledVoltage s))
  have eq : q = finish false b (epochEnded (adopt s.ins.epochNumber s.cfg.stationCode x (sampledVoltage s)
      (epochClosed (.finding s.ins.epochNumber 0 x (sampledVoltage s)) s))) := by rw [← endOwnEpoch_accepted]
  have code : s.cfg.stationCode = b.cfg.stationCode := by rw [ending.same]
  rw [ending.voltage, code, ending.number] at eq
  rw [ending.voltage, ending.number] at found trc withdrawn
  generalize epochClosed (.finding b.ins.epochNumber 0 x (sampledVoltage b)) s = z at *
  have takes : z.stc.op.takesFrames = true := by
    rw [found.same]
    show b.stc.op.takesFrames = true
    rw [session]
    rfl
  obtain ⟨ended, lost⟩ := ownEpochEnded_of (found.adopting x (sampledVoltage b)) session (evaluate_station takes)
  have adopted := findingAdopted_adopt (epoch := b.ins.epochNumber) (measurer := b.cfg.stationCode) (r := x)
    (v := sampledVoltage b) takes
  rw [branchFor_recorded found.record] at adopted
  rw [← adopt_eq, ← eq] at ended lost
  obtain ⟨rest, busRecord, epi, flt, vlk, ptb, dli⟩ := epochEnded_kept b
    (adopt b.ins.epochNumber b.cfg.stationCode x (sampledVoltage b) z)
  rw [← eq] at rest busRecord epi flt vlk ptb dli
  generalize adopt b.ins.epochNumber b.cfg.stationCode x (sampledVoltage b) z = y at *
  refine ⟨⟨ended, ?_⟩, fun resend => lost (withdrawn resend)⟩
  refine findingAdopted_congr adopted ?_ ?_ ?_ trc.symm ?_ ?_ ?_ ?_ ?_ ?_ ?_ rest busRecord epi flt vlk ?_
    (congrArg (fun d => d.queue.leave) dli) (congrArg (fun d => d.queue.claim) dli)
  · rw [found.same]
  · rw [found.same]
  · rw [found.same]
  · rw [found.same]
  · rw [found.same]
  · rw [found.same]
  · rw [found.same]
  · rw [found.same]
  · rw [found.same]
  · rw [found.same, MarksAgree, MarksAgree]
  · rw [MarksAgree, MarksAgree, ptb, epi]

end Sys2Proof.Proofs
end

section
/-! PROOF. The five frames sent (R17, R38, R88, R99, R151). -/

namespace Sys2Proof.Proofs
open Sys2Proof.Machine

/-- The state in which the owner of a frame sent is told (R151). -/
theorem frameSent_finished {k : FrameKind} {tell : Attempt → State → State} {a : Attempt} {s : State} (sending : s.dli.attempt = some a)
    (kind : a.kind = k) (ended : a.ends ≤ s.now) : frameSent k tell s = tell a { s with dli := s.dli.sent s.now a } := by
  have finished : finishedAttempt k s = some a := by
    rw [finishedAttempt, sending]
    exact if_pos ⟨kind, ended⟩
  rw [frameSent, finished]

theorem startsHold_iff {carried : Nat} {u : Shu} : startsHold carried u = true ↔ u.raisePending = true ∧ u.intent ≤ carried := by
  rw [startsHold, Bool.and_eq_true, decide_eq_true_eq]

theorem carriedIntent_announce {f : Frame} {x : ShareFields} (payload : f.payload = .announce x) : carriedIntent f = x.intent := by
  rw [carriedIntent, payload]

/-! ## The own EPOCH sent (R88, R99) -/

theorem epochSent_pending {x : State} (state : x.ins.epochState = .pending) : epochSent x = { x with ins := x.ins.inject x.now } := by
  rw [epochSent, state]

theorem epochSent_moves {x : State} (state : x.ins.epochState = .injecting) (resend : x.ins.resend = true) :
    epochSent x = moveOrigin x := by
  rw [epochSent, state]
  exact if_pos resend

theorem epochSent_stays {x : State} (state : x.ins.epochState = .injecting ∧ x.ins.resend = false ∨ x.ins.epochState = .idle ∨
    x.ins.epochState = .observing) : epochSent x = x := by
  rcases state with ⟨state, quiet⟩ | state | state
  · rw [epochSent, state]
    exact if_neg (by rw [quiet]; decide)
  · rw [epochSent, state]
  · rw [epochSent, state]

theorem restart_next {now : Nat} {i : Ins} (state : i.epochState = .injecting) (more : i.cycleCount < 6) : i.restart now = { i with
    origin := some now, cycleCount := i.cycleCount + 1, busTrack := none, branchTrack := i.branchTrack.clearHeld
    source := .positive, halfStart := some now, half := .positive, points := 0, samplesU := [], samplesI := [], discarded := false } := by
  simp only [Ins.restart, if_pos more, Ins.startCycle, state, Nat.min_eq_left more]
  rfl

theorem restart_cut {now : Nat} {i : Ins} (last : 6 ≤ i.cycleCount) : i.restart now = { i.stopCycle with
    origin := some now, busTrack := none, branchTrack := sixthCut i.branchTrack } := by
  simp only [Ins.restart, if_neg (Nat.not_lt.2 last), sixthCut_eq]
  rfl

theorem moveOrigin_next {x : State} (more : x.ins.cycleCount < 6) : moveOrigin x = { x with
    ins := { x.ins.restart x.now with resend := false }, htr := { x.htr with window := false } } := if_pos more

/-- The state in which an EPOCH sent during the sixth cycle ends the epoch (R93, R94). -/
def originMoved (x : State) : State := closeWindow { x with ins := { x.ins.restart x.now with resend := false } }

theorem moveOrigin_cut {x : State} (last : 6 ≤ x.ins.cycleCount) : moveOrigin x = endOwnEpoch none (originMoved x) :=
  if_neg (Nat.not_lt.2 last)

theorem trackResult_sixthCut (b : BranchTrack) : trackResult (sixthCut b) = trackResult b := by cases b <;> rfl

theorem epochEnding_originMoved {b x : State} {d : Dli} (is : x = { b with dli := d }) (last : 6 ≤ b.ins.cycleCount) :
    EpochEnding b b.ins.branchTrack (originMoved x) := by
  have ins : (originMoved x).ins = { b.ins.stopCycle with
      origin := some b.now, busTrack := none, branchTrack := sixthCut b.ins.branchTrack, resend := false } := by
    rw [is]
    show { b.ins.restart b.now with resend := false } = _
    rw [restart_cut last]
  refine ⟨by rw [is]; rfl, ?_, ?_, ?_, ?_, ?_⟩
  · rw [ins]; rfl
  · rw [ins]; rfl
  · rw [ins]; rfl
  · rw [ins]; rfl
  · rw [ins]
    exact trackResult_sixthCut _

theorem originMoved_unsettledDetail {x : State} (last : 6 ≤ x.ins.cycleCount) :
    (originMoved x).ins.unsettledDetail = x.ins.unsettledDetail := by
  show Ins.unsettledDetail { x.ins.restart x.now with resend := false } = _
  rw [restart_cut last]
  rfl

/-- An own epoch that is not queued again leaves the line but for its FINDING (R94). -/
theorem epochClosed_line {c : TxContent} {s : State} (quiet : s.ins.resend = false) (free : s.dli.attempt = none)
    (op : s.stc.op = .session) :
    (epochClosed c s).dli = { s.dli with queue := s.dli.queue.set .finding (some { content := c, failed := 0 }) } := by
  have still : ¬ s.ins.setBranchRecord.resend = true := by
    show ¬ s.ins.resend = true
    rw [quiet]
    decide
  unfold epochClosed
  dsimp only
  rw [if_neg still, queueFrame_free (by exact free) (by show s.stc.op ≠ .start; rw [op]; decide) (by decide)]
  rfl

theorem settleTable_emptyTable_settled (before b : State) : TableSettled b (finish false before (settleTable (emptyTable b))) := by
  have no_fault : ¬ (b.ptb.mismatch = false ∧ (emptyTable b).ptb.feeder < b.cfg.feederLimit) := fun h => Nat.lt_irrefl _ h.2
  exact settleTable_settled (y := emptyTable b) ⟨rfl, rfl, rfl, rfl, rfl, rfl, rfl, rfl⟩ rfl rfl rfl rfl rfl rfl
    (decide_eq_false (Nat.lt_irrefl _)).symm (if_neg no_fault).symm (if_neg no_fault).symm

/-! ## The five frames -/

/-- The event of a frame sent (R151). -/
theorem event_frameSent {t : Nat} {k : FrameKind} {tell : Attempt → State → State} {a : Attempt} {s : State}
    (sending : (elapse t s).dli.attempt = some a) (kind : a.kind = k) (ended : a.ends ≤ (elapse t s).now) :
    event t (frameSent k tell) s = finish false (elapse t s)
      (tell a { elapse t s with dli := (elapse t s).dli.sent (elapse t s).now a }) :=
  event_eq (frameSent_finished sending kind ended)

theorem finish_line (s : State) (d : Dli) : finish false s { s with dli := d } = { s with dli := d } := finish_quiet rfl rfl

/-- Settles O50: the entry leaves the queue, and the owner acts by the kind. -/
theorem framesSentTaken : Obligations.FramesSentTaken := by
  intro t a s s0 sending ended d
  have sent : s0.dli.sent s0.now a = d := rfl
  have told : ∀ {k : FrameKind} {tell : Attempt → State → State}, a.kind = k →
      event t (frameSent k tell) s = finish false s0 (tell a { s0 with dli := d }) := fun kind => event_frameSent sending kind ended
  have free : d.attempt = none := rfl
  refine ⟨fun kind => ?_, fun f kind payload raised covered => ?_, fun f kind payload waits => ?_, fun kind state => ?_,
    fun kind state resend more => ?_, fun kind session state resend last => ?_, fun kind state quiet => ?_, fun kind state => ?_,
    fun kind => ⟨fun stays => ?_, fun op claim leave => ?_⟩⟩
  · exact congrArg Host.Outcome.next ((told kind).trans (finish_line s0 d))
  · have starts : announceSent a { s0 with dli := d } = setEntries (s0.ptb.entries.map PeerEntry.unheard)
        { s0 with dli := d, shu := s0.shu.startHold s0.now s0.cfg.ta } :=
      if_pos (startsHold_iff.2 ⟨raised, by rw [carriedIntent_announce payload]; exact covered⟩)
    refine congrArg Host.Outcome.next ((told kind).trans ?_)
    rw [starts]
    exact finish_quiet rfl rfl
  · have stays : announceSent a { s0 with dli := d } = { s0 with dli := d } := if_neg fun starts => by
      obtain ⟨raised, covered⟩ := startsHold_iff.1 starts
      rw [carriedIntent_announce payload] at covered
      rcases waits with quiet | above
      · exact Bool.noConfusion (quiet.symm.trans raised)
      · exact Nat.not_le.2 above covered
    refine congrArg Host.Outcome.next ((told kind).trans ?_)
    rw [stays]
    exact finish_line s0 d
  · refine congrArg Host.Outcome.next ((told kind).trans ?_)
    rw [epochSent_pending (x := { s0 with dli := d }) state]
    exact finish_quiet rfl rfl
  · have run : exec (.epochSent t) s = .next (finish false s0 (moveOrigin { s0 with dli := d })) := by
      refine congrArg Host.Outcome.next ((told kind).trans ?_)
      rw [epochSent_moves (x := { s0 with dli := d }) state resend]
    clear_value s0 d
    rw [moveOrigin_next (x := { s0 with dli := d }) more, restart_next state more] at run
    obtain ⟨zones, window, -⟩ := finish_kept false s0 _
    exact ⟨_, run, rfl, window, ⟨rfl, rfl, rfl, rfl, rfl, rfl, rfl, rfl⟩, rfl, rfl, rfl, rfl, rfl, rfl, zones, rfl⟩
  · have run : exec (.epochSent t) s = .next (finish false s0 (endOwnEpoch none (originMoved { s0 with dli := d }))) := by
      refine congrArg Host.Outcome.next ((told kind).trans ?_)
      rw [epochSent_moves (x := { s0 with dli := d }) state resend, moveOrigin_cut (x := { s0 with dli := d }) last]
    clear_value s0 d
    have ending : EpochEnding s0 s0.ins.branchTrack (originMoved { s0 with dli := d }) := epochEnding_originMoved rfl last
    obtain ⟨unsettled, -, line⟩ := unsettled_ended ending session
    rw [originMoved_unsettledDetail (x := { s0 with dli := d }) last] at unsettled
    refine ⟨_, run, unsettled, fun policy => ?_⟩
    rw [line policy, epochClosed_line rfl (by exact free) (by exact session), ending.voltage, ending.number]
    rfl
  · refine congrArg Host.Outcome.next ((told kind).trans ?_)
    rw [epochSent_stays (x := { s0 with dli := d }) (.inl ⟨state, quiet⟩)]
    exact finish_line s0 d
  · refine congrArg Host.Outcome.next ((told kind).trans ?_)
    rw [epochSent_stays (x := { s0 with dli := d }) (.inr state)]
    exact finish_line s0 d
  · have same : emptyIfDone { s0 with dli := d } = { s0 with dli := d } := if_neg fun done => by
      obtain ⟨op, claim, leave⟩ := done
      rcases stays with h | h | h
      · exact h op
      · exact h claim
      · exact h leave
    rcases kind with kind | kind
    · rw [if_pos kind]
      refine congrArg Host.Outcome.next ((told kind).trans ?_)
      rw [same]
      exact finish_line s0 d
    · rw [if_neg (by rw [kind]; decide)]
      refine congrArg Host.Outcome.next ((told kind).trans ?_)
      rw [same]
      exact finish_line s0 d
  · have run : exec (if a.kind = .claim then .claimSent t else .leaveSent t) s =
        .next (finish false s0 (emptyIfDone { s0 with dli := d })) := by
      rcases kind with kind | kind
      · rw [if_pos kind]
        exact congrArg Host.Outcome.next (told kind)
      · rw [if_neg (by rw [kind]; decide)]
        exact congrArg Host.Outcome.next (told kind)
    clear_value s0 d
    have empties : emptyIfDone { s0 with dli := d } = settleTable (emptyTable { s0 with dli := d }) := if_pos ⟨op, claim, leave⟩
    rw [empties] at run
    exact ⟨_, run, settleTable_ptb _, settleTable_epi _, settleTable_emptyTable_settled s0 { s0 with dli := d }⟩

end Sys2Proof.Proofs
end

section
/-! PROOF. The samples of a cycle, its half ends and its end (R84, R89 to R95, R101). -/

namespace Sys2Proof.Proofs
open Sys2Proof.Machine

/-! ## A sample point (R84, R89) -/

/-- The station takes samples: injecting, or observing with its track open (R89, R95). -/
abbrev Taking (i : Ins) : Prop := i.epochState = .injecting ∨ i.epochState = .observing ∧ i.branchTrack.final = false

/-- The epoch work after a sample point (R84, R89). -/
def pointTaken (trim : TrimConstants) (u ib : Int) (i : Ins) : Ins := { i with
  samplesU := if Taking i then i.samplesU ++ [max (-600000) (min u 600000)] else i.samplesU
  samplesI := if Taking i then i.samplesI ++ [max (-100000) (min ib 100000) * trim.branchGain / 10000] else i.samplesI
  points := i.points + 1 }

theorem sampling_iff (i : Ins) : i.sampling = true ↔ Taking i := by
  simp [Ins.sampling, Taking]

theorem passPoint_eq (u ib : Int) (s : State) : passPoint u ib s = { s with ins := pointTaken s.trm.inUse u ib s.ins } := by
  have point : s.ins.passPoint (sensedU u) (sensedI s.trm.inUse ib) = pointTaken s.trm.inUse u ib s.ins := by
    unfold Ins.passPoint Ins.sample pointTaken
    by_cases taking : Taking s.ins
    · rw [if_pos ((sampling_iff _).2 taking), if_pos taking, if_pos taking]
      rfl
    · rw [if_neg (mt (sampling_iff _).1 taking), if_neg taking, if_neg taking]
  rw [passPoint, point]

theorem samplePoint_first {u ib : Int} {s : State} {h : Nat} (half : s.ins.halfStart = some h) (points : s.ins.points = 0)
    (due : h + 2 * s.ins.tHalf / 3 * 1000 ≤ s.now) :
    samplePoint u ib s = { s with ins := pointTaken s.trm.inUse u ib s.ins, htr := { s.htr with window := true } } := by
  have is_due : s.ins.pointDue s.now = true := by simp [Ins.pointDue, Ins.nextPoint, half, points, due]
  rw [samplePoint, if_pos is_due, if_pos points, passPoint_eq]
  rfl

theorem samplePoint_second {u ib : Int} {s : State} {h : Nat} (half : s.ins.halfStart = some h) (points : s.ins.points = 1)
    (due : h + 5 * s.ins.tHalf / 6 * 1000 ≤ s.now) :
    samplePoint u ib s = { s with ins := pointTaken s.trm.inUse u ib s.ins } := by
  have is_due : s.ins.pointDue s.now = true := by simp [Ins.pointDue, Ins.nextPoint, half, points, due]
  rw [samplePoint, if_pos is_due, if_neg (by rw [points]; decide), passPoint_eq]

/-! ## The end of a half and of a cycle (R89, R93 to R95) -/

/-- The state in which the end of a half does its work: the end sample taken, the window closed (R89). -/
def halfClosed (u ib : Int) (s : State) : State :=
  { s with ins := pointTaken s.trm.inUse u ib s.ins, htr := { s.htr with window := false } }

section
variable {u ib : Int} {s : State} {h : Nat} (start : s.ins.halfStart = some h) (points : s.ins.points = 2)
  (due : h + s.ins.tHalf * 1000 ≤ s.now)
include start points due

theorem halfDue_of : s.ins.halfDue s.now = true := by simp [Ins.halfDue, Ins.nextPoint, start, points, due]

theorem halfEnds_positive (half : s.ins.half = .positive) : halfEnds u ib s = { halfClosed u ib s with
    ins := (pointTaken s.trm.inUse u ib s.ins).startNegative (h + s.ins.tHalf * 1000) } := by
  rw [halfEnds, if_pos (halfDue_of start points due), passPoint_eq, start, half]
  rfl

theorem halfEnds_negative (half : s.ins.half = .negative) :
    halfEnds u ib s = cycleEnd (h + s.ins.tHalf * 1000) (halfClosed u ib s) := by
  rw [halfEnds, if_pos (halfDue_of start points due), passPoint_eq, start, half]
  rfl

end

/-- The state in which a cycle's end asks the bus track: tracks and cycle record moved (R85, R93). -/
def cycleClosed (s : State) : State := { s with ins := s.ins.endCycle s.trm.inUse }

section
variable {m : Nat} {s : State}

theorem cycleEnd_accepts {x : Nat} (state : s.ins.epochState = .injecting)
    (step : trackStep s.ins.busTrack (s.ins.cycleBus s.trm.inUse) = .accepted x) :
    cycleEnd m s = endOwnEpoch (some x) (cycleClosed s) := by
  have result : s.ins.busResult s.trm.inUse = .accepted x := by rw [Ins.busResult, if_pos state, busOutcome, step]
  rw [cycleEnd, result]
  rfl

theorem cycleEnd_unsettled {e : Option Nat} (state : s.ins.epochState = .injecting)
    (step : trackStep s.ins.busTrack (s.ins.cycleBus s.trm.inUse) = .held e) (last : 6 ≤ s.ins.cycleCount) :
    cycleEnd m s = endOwnEpoch none (cycleClosed s) := by
  have result : s.ins.busResult s.trm.inUse = .unsettled := by
    rw [Ins.busResult, if_pos state, busOutcome, step]
    exact if_pos (decide_eq_true last)
  rw [cycleEnd, result]
  rfl

theorem cycleEnd_goes_on {e : Option Nat} (state : s.ins.epochState = .injecting)
    (step : trackStep s.ins.busTrack (s.ins.cycleBus s.trm.inUse) = .held e) (more : s.ins.cycleCount < 6) :
    cycleEnd m s = { s with ins := (s.ins.endCycle s.trm.inUse).followCycle m } := by
  have result : s.ins.busResult s.trm.inUse = .going := by
    rw [Ins.busResult, if_pos state, busOutcome, step]
    exact if_neg (by rw [decide_eq_false (Nat.not_le.2 more)]; decide)
  rw [cycleEnd, result]

theorem cycleEnd_observing (state : s.ins.epochState = .observing) :
    cycleEnd m s = { s with ins := (s.ins.endCycle s.trm.inUse).followCycle m } := by
  have result : s.ins.busResult s.trm.inUse = .going := by
    rw [Ins.busResult, if_neg (by rw [state]; decide)]
  rw [cycleEnd, result]

end

theorem givesEstimates_iff {ui : Nat} {i : Ins} : i.givesEstimates ui = true ↔ i.samplesU.length = 6 ∧
    (i.samplesU.getD 1 0 - i.samplesU.getD 2 0).natAbs ≤ ui / 100 ∧
    (i.samplesU.getD 4 0 - i.samplesU.getD 5 0).natAbs ≤ ui / 100 ∧ i.discarded = false := by
  simp only [Ins.givesEstimates, cycleSettled, halfSettled, Bool.and_eq_true, decide_eq_true_eq, Bool.not_eq_true', and_assoc]

theorem cycleBranch_eq {trim : TrimConstants} {i : Ins} {sound : Prop} [Decidable sound]
    (same : i.givesEstimates trim.ui = true ↔ sound) : i.cycleBranch trim = if sound then some (branchEstimate
      (i.samplesU.getD 2 0 - i.samplesU.getD 5 0) (i.samplesI.getD 2 0 - i.samplesI.getD 5 0)) else none := by
  rw [Ins.cycleBranch, if_congr same rfl rfl]
  rfl

theorem followCycle_more {start : Nat} {i : Ins} (more : i.cycleCount < 6) : i.followCycle start = i.startCycle start := if_pos more

theorem followCycle_last {start : Nat} {i : Ins} (last : 6 ≤ i.cycleCount) : i.followCycle start = i.stopCycle :=
  if_neg (Nat.not_lt.2 last)

theorem busHeld_of {trim : TrimConstants} {i : Ins} {e : Option Nat} (step : trackStep i.busTrack (i.cycleBus trim) = .held e) :
    i.busHeld trim = e := by rw [Ins.busHeld, step]

theorem finish_window_opened (i : Ins) (s : State) :
    finish false s { s with ins := i, htr := { s.htr with window := true } } =
      { s with ins := i, htr := { s.htr with window := true } } := by
  have still : testDue s { s with ins := i, htr := { s.htr with window := true } } = false := by simp [testDue]
  have idle : Htr.startIdle s.now (inSession s) s.htr.zones.anyHeating { s.htr with window := true } =
      { s.htr with window := true } := by
    unfold Htr.startIdle
    cases s.htr.zones.anyHeating <;> simp
  rw [finish, if_neg (by rw [still]; decide)]
  exact congrArg (fun k => { s with ins := i, htr := k }) idle

/-- The frame of an event that changes the epoch work and closes the window (R75, R82). -/
theorem finish_window_closed (i : Ins) (s : State) :
    let q := finish false s { s with ins := i, htr := { s.htr with window := false } }
    q.ins = i ∧ q.htr.window = false ∧ RestKept s q ∧ q.epi = s.epi ∧ q.ptb = s.ptb ∧ q.shu = s.shu ∧ q.dmu = s.dmu ∧
      q.dli = s.dli ∧ q.flt = s.flt ∧ q.vlk = s.vlk ∧ ZonesKept s.cfg.doseLimit s.htr.zones q.htr.zones := by
  obtain ⟨zones, window, -⟩ := finish_kept false s { s with ins := i, htr := { s.htr with window := false } }
  exact ⟨rfl, window, ⟨rfl, rfl, rfl, rfl, rfl, rfl, rfl, rfl⟩, rfl, rfl, rfl, rfl, rfl, rfl, rfl, zones⟩

theorem epochEnding_cycleClosed {u ib : Int} {s : State} {track : BranchTrack}
    (tracked : (cycleClosed (halfClosed u ib s)).ins.branchTrack = track) :
    EpochEnding s track (cycleClosed (halfClosed u ib s)) :=
  ⟨rfl, rfl, rfl, rfl, rfl, by rw [tracked]⟩

/-- Settles O56: a sample point, a half's end, and a cycle's end by the epoch state and the bus track. -/
theorem cycleSamplesTaken : Obligations.CycleSamplesTaken := by
  intro t h u ib s s0 i taking us is ends j sound branch track record start
  have trimmed : pointTaken s0.trm.inUse u ib i = j := rfl
  have estimate : j.cycleBranch s0.trm.inUse = branch := cycleBranch_eq givesEstimates_iff
  have tracked : j.branchTrack.next (decide (6 ≤ j.cycleCount)) (j.cycleBranch s0.trm.inUse) = track := by
    rw [estimate]
    show i.branchTrack.next (decide (6 ≤ i.cycleCount)) branch = track
    simp only [track, BranchTrack.next]
    cases i.branchTrack with
    | accepted x => rfl
    | unsettled => rfl
    | absent =>
      simp only [BranchTrack.final, BranchTrack.heldEstimate]
      cases trackStep none branch <;> simp
    | held e =>
      simp only [BranchTrack.final, BranchTrack.heldEstimate]
      cases trackStep (some e) branch <;> simp
  refine ⟨fun points due => ?_, fun points due => ?_, fun points due half => ?_, fun x session points due half state step => ?_,
    fun e points due half state step more => ?_, fun points due half state => ?_,
    fun e points due half state step last session => ?_⟩
  · refine congrArg Host.Outcome.next ((event_eq (samplePoint_first start points due)).trans ?_)
    refine (finish_window_opened _ s0).trans ?_
    have taken : pointTaken s0.trm.inUse u ib s0.ins = { i with samplesU := us, samplesI := is, points := 1 } := by
      show { i with samplesU := us, samplesI := is, points := i.points + 1 } = _
      rw [points]
    rw [taken]
  · refine congrArg Host.Outcome.next ((event_eq (samplePoint_second start points due)).trans ?_)
    have taken : pointTaken s0.trm.inUse u ib s0.ins = { i with samplesU := us, samplesI := is, points := 2 } := by
      show { i with samplesU := us, samplesI := is, points := i.points + 1 } = _
      rw [points]
    rw [taken]
    exact finish_quiet rfl rfl
  · have run : exec (.halfEnd t u ib) s = .next (finish false s0 { s0 with
        ins := (pointTaken s0.trm.inUse u ib s0.ins).startNegative ends, htr := { s0.htr with window := false } }) :=
      congrArg Host.Outcome.next (event_eq (halfEnds_positive start points due half))
    obtain ⟨ins, window, rest, epi, ptb, shu, dmu, dli, flt, vlk, zones⟩ :=
      finish_window_closed ((pointTaken s0.trm.inUse u ib s0.ins).startNegative ends) s0
    exact ⟨_, run, ins, window, rest, epi, ptb, shu, dmu, dli, flt, vlk, zones⟩
  · have run : exec (.halfEnd t u ib) s = .next (finish false s0 (endOwnEpoch (some x) (cycleClosed (halfClosed u ib s0)))) :=
      congrArg Host.Outcome.next (event_eq ((halfEnds_negative start points due half).trans
        (cycleEnd_accepts (s := halfClosed u ib s0) state step)))
    obtain ⟨accepted, withdrawn⟩ := accepted_ended (epochEnding_cycleClosed tracked) session
    exact ⟨_, run, accepted, withdrawn⟩
  · have run : exec (.halfEnd t u ib) s = .next (finish false s0 { s0 with
        ins := (j.endCycle s0.trm.inUse).followCycle ends, htr := { s0.htr with window := false } }) :=
      congrArg Host.Outcome.next (event_eq ((halfEnds_negative start points due half).trans
        (cycleEnd_goes_on (s := halfClosed u ib s0) state step more)))
    obtain ⟨ins, window, rest, epi, ptb, shu, -, dli, flt, vlk, -⟩ :=
      finish_window_closed ((j.endCycle s0.trm.inUse).followCycle ends) s0
    refine ⟨_, run, ?_⟩
    rw [ins, followCycle_more (i := j.endCycle s0.trm.inUse) more]
    refine ⟨state, Nat.min_eq_left more, ?_, rfl, rfl, if_pos state, tracked, rfl, rfl, rfl, rfl, window, rest, epi, ptb, shu, dli,
      flt, vlk⟩
    exact busHeld_of (i := j) step
  · have run : exec (.halfEnd t u ib) s = .next (finish false s0 { s0 with
        ins := (j.endCycle s0.trm.inUse).followCycle ends, htr := { s0.htr with window := false } }) :=
      congrArg Host.Outcome.next (event_eq ((halfEnds_negative start points due half).trans
        (cycleEnd_observing (s := halfClosed u ib s0) state)))
    obtain ⟨ins, window, rest, epi, ptb, shu, -, dli, flt, vlk, -⟩ :=
      finish_window_closed ((j.endCycle s0.trm.inUse).followCycle ends) s0
    have off : ¬ (j.endCycle s0.trm.inUse).epochState = .injecting := by
      show ¬ i.epochState = .injecting
      rw [state]
      decide
    refine ⟨_, run, ?_⟩
    rw [ins]
    by_cases more : i.cycleCount < 6
    · rw [followCycle_more (i := j.endCycle s0.trm.inUse) more]
      exact ⟨state, tracked, rfl, if_neg off, rfl, rfl, rfl, rfl, rfl, rfl, fun _ => ⟨Nat.min_eq_left more, rfl, rfl⟩,
        fun last => absurd more (Nat.not_lt.2 last), window, rest, epi, ptb, shu, dli, flt, vlk⟩
    · rw [followCycle_last (i := j.endCycle s0.trm.inUse) (Nat.not_lt.1 more)]
      exact ⟨state, tracked, rfl, rfl, rfl, rfl, rfl, rfl, rfl, rfl, fun less => absurd less more, fun _ => ⟨rfl, rfl⟩, window, rest,
        epi, ptb, shu, dli, flt, vlk⟩
  · have run : exec (.halfEnd t u ib) s = .next (finish false s0 (endOwnEpoch none (cycleClosed (halfClosed u ib s0)))) :=
      congrArg Host.Outcome.next (event_eq ((halfEnds_negative start points due half).trans
        (cycleEnd_unsettled (s := halfClosed u ib s0) state step last)))
    obtain ⟨unsettled, withdrawn, -⟩ := unsettled_ended (epochEnding_cycleClosed tracked) session
    refine ⟨_, run, withdrawn, ?_⟩
    have detail : (cycleClosed (halfClosed u ib s0)).ins.unsettledDetail = match j.cycleBus s0.trm.inUse with
        | some x => x
        | none => match i.lastEstimate with
          | some x => x
          | none => 65535 := by
      show Ins.unsettledDetail (j.endCycle s0.trm.inUse) = _
      rw [Ins.unsettledDetail, Ins.endCycle]
      cases j.cycleBus s0.trm.inUse <;> rfl
    rw [detail] at unsettled
    exact unsettled

end Sys2Proof.Proofs
end

section
/-! PROOF. The heater: what the switch-off, a halt and the event's tail do to a zone, and figures that agree with the zones (R58 to
R62, R74 to R76, R82). -/

namespace Sys2Proof.Proofs
open Sys2Proof.Machine

/-! ## The idle timer (R82) -/

/-- A zone's heating, as time passes. -/
theorem elapse_anyHeating (t : Nat) (s : State) : (elapse t s).htr.zones.anyHeating = s.htr.zones.anyHeating := by
  unfold elapse
  split
  · rfl
  · have same : ∀ z, ((s.htr.zones.map (Zone.warm s.cfg.doseLimit (t - s.now))).get z).heats = (s.htr.zones.get z).heats :=
      fun z => by rw [Quad.get_map, warm_heats]
    show (s.htr.zones.map (Zone.warm s.cfg.doseLimit (t - s.now))).anyHeating = _
    rw [Bool.eq_iff_iff, anyHeating_iff, anyHeating_iff]
    exact exists_congr fun z => by rw [same]

/-- An event that leaves no zone HEATING in SESSION behind a closed contactor starts the idle timer. -/
theorem finish_starts_idle {force : Bool} {before after : State} (had : before.htr.zones.anyHeating = true)
    (none : (finish force before after).htr.zones.anyHeating = false) (session : (finish force before after).stc.op = .session)
    (closed : (finish force before after).htr.contactor = true) :
    (finish force before after).htr.idle = some ((finish force before after).now + 30000000) := by
  obtain ⟨h, is⟩ : ∃ h : Htr, (finish force before after).htr = h.startIdle after.now (inSession after) true :=
    ⟨_, by rw [← had]; rfl⟩
  obtain ⟨zones, -, -, -, contactor, -⟩ := startIdle_kept after.now (inSession after) true h
  have on : inSession after = true := decide_eq_true session
  rw [is] at none closed ⊢
  rw [zones] at none
  rw [contactor] at closed
  rw [on, Htr.startIdle, if_pos (by rw [closed, none]; rfl)]
  rfl

/-! ## A zone that is not HEATING -/

theorem heats_iff {x : Zone} : x.heats = true ↔ x.state = .heating := by rw [Zone.heats, decide_eq_true_eq]

theorem heats_false {x : Zone} (h : x.state ≠ .heating) : x.heats = false := decide_eq_false h

theorem switchOff_still {limit : Nat} {x : Zone} (h : x.heats = false) : x.switchOff limit = x :=
  if_neg (by rw [h]; decide)

/-- The switch-off for allowance leaves a zone that is not HEATING (R76). -/
theorem shedZones_still {limit allow : Nat} {ratings : Quad Nat} {z : ZoneId} (zs : List ZoneId) (q : Quad Zone)
    (h : (q.get z).heats = false) : (shedZones limit allow ratings zs q).get z = q.get z := by
  induction zs generalizing q with
  | nil => rfl
  | cons w zs ih =>
    rw [shedZones]
    split
    · rfl
    · have same : (q.set w ((q.get w).switchOff limit)).get z = q.get z := by
        rw [Quad.get_set]
        split
        · next is =>
          subst is
          exact switchOff_still h
        · rfl
      rw [ih _ (by rw [same]; exact h), same]

/-- Where the ratings fit the allowance no zone is switched off (R76). -/
theorem shedZones_fit {limit allow : Nat} {ratings : Quad Nat} {q : Quad Zone} (fits : ratedSum Zone.heats q ratings ≤ allow)
    (zs : List ZoneId) : shedZones limit allow ratings zs q = q := by
  cases zs with
  | nil => rfl
  | cons w zs => rw [shedZones, if_pos fits]

theorem leaveSession_zonesKept (limit : Nat) (h : Htr) : ZonesKept limit h.zones (h.leaveSession limit).zones := fun z => by
  have kept := switchOff_zonesKept limit h.zones z z
  rw [Quad.get_set, if_pos rfl] at kept
  rwa [Htr.leaveSession, Quad.get_map]

/-- The heater's zones, but for those switched off. -/
structure ZonesOff (limit : Nat) (p q : Quad Zone) : Prop where
  kept : ZonesKept limit p q
  still : ∀ z, (p.get z).heats = false → q.get z = p.get z

theorem ZonesOff.refl (limit : Nat) (q : Quad Zone) : ZonesOff limit q q := ⟨ZonesKept.refl limit q, fun _ _ => rfl⟩

theorem ZonesOff.trans {limit : Nat} {p q r : Quad Zone} (h : ZonesOff limit p q) (k : ZonesOff limit q r) : ZonesOff limit p r :=
  ⟨h.kept.trans k.kept, fun z off => (k.still z (by rw [h.still z off]; exact off)).trans (h.still z off)⟩

theorem zonesOff_shed (limit allow : Nat) (ratings : Quad Nat) (zs : List ZoneId) (q : Quad Zone) :
    ZonesOff limit q (shedZones limit allow ratings zs q) :=
  ⟨shedZones_zonesKept _ _ _ _ _, fun _ off => shedZones_still zs q off⟩

theorem zonesOff_leaveSession (limit : Nat) (h : Htr) : ZonesOff limit h.zones (h.leaveSession limit).zones :=
  ⟨leaveSession_zonesKept limit h, fun z off => by rw [Htr.leaveSession, Quad.get_map, switchOff_still off]⟩

theorem zonesOff_resplit (s : State) : ZonesOff s.cfg.doseLimit s.htr.zones (resplit s).htr.zones := zonesOff_shed _ _ _ _ _

/-! ## Figures that agree with the zones (R58 to R62) -/

/-- The demand figures are those of the zones as they stand. -/
def FiguresFresh (s : State) : Prop :=
  s.dmu.tMin = tMinOf s.htr.zones ∧ s.dmu.heaterDemand = ratedSum Zone.asks s.htr.zones s.cfg.ratings ∧
    s.dmu.ownDemand = min s.cfg.ist (s.dmu.chargerDemand + s.dmu.heaterDemand)

theorem zonesKept_gives {limit : Nat} {p q : Quad Zone} (h : ZonesKept limit p q) (z : ZoneId) :
    (q.get z).gives = (p.get z).gives := by
  obtain ⟨temp, -, -, out, -⟩ := h z
  unfold Zone.gives
  rw [temp]
  exact if_congr out rfl rfl

theorem zonesKept_asks {limit : Nat} {p q : Quad Zone} (h : ZonesKept limit p q) (z : ZoneId) :
    (q.get z).asks = (p.get z).asks := by
  obtain ⟨-, -, -, out, warm⟩ := h z
  unfold Zone.asks
  cases hp : (p.get z).state <;> cases hq : (q.get z).state <;> simp_all

theorem zonesKept_tMin {limit : Nat} {p q : Quad Zone} (h : ZonesKept limit p q) : tMinOf q = tMinOf p := by
  have h1 := zonesKept_gives h .z1
  have h2 := zonesKept_gives h .z2
  have h3 := zonesKept_gives h .z3
  have h4 := zonesKept_gives h .z4
  simp only [Quad.get] at h1 h2 h3 h4
  simp only [tMinOf, Quad.list, List.map_cons, List.map_nil, h1, h2, h3, h4]

theorem zonesKept_demand {limit : Nat} {p q : Quad Zone} (h : ZonesKept limit p q) (ratings : Quad Nat) :
    ratedSum Zone.asks q ratings = ratedSum Zone.asks p ratings := by
  simp only [ratedSum, allZones, zonesKept_asks h]

/-- Figures that agree go on agreeing where only HEATING and WAITING change places and the split moves the allowances. -/
theorem FiguresFresh.of_kept {s t : State} {limit : Nat} (h : FiguresFresh s) (zones : ZonesKept limit s.htr.zones t.htr.zones)
    (cfg : t.cfg = s.cfg) (tMin : t.dmu.tMin = s.dmu.tMin) (heater : t.dmu.heaterDemand = s.dmu.heaterDemand)
    (charger : t.dmu.chargerDemand = s.dmu.chargerDemand) (own : t.dmu.ownDemand = s.dmu.ownDemand) : FiguresFresh t := by
  obtain ⟨a, b, c⟩ := h
  unfold FiguresFresh
  rw [tMin, heater, charger, own, cfg, zonesKept_tMin zones, zonesKept_demand zones]
  exact ⟨a, b, c⟩

theorem refreshDemand_fresh (s : State) : FiguresFresh (refreshDemand s) := ⟨rfl, rfl, rfl⟩

/-! ## A raise -/

/-- What a step that switches zones off at most leaves of the heater and the figures (R76, R83). -/
structure HeaterLeft (s t : State) : Prop where
  cfg : t.cfg = s.cfg
  zones : ZonesOff s.cfg.doseLimit s.htr.zones t.htr.zones
  start : t.htr.cycleStart = s.htr.cycleStart
  converted : t.htr.converted = s.htr.converted
  fresh : FiguresFresh s → FiguresFresh t

theorem HeaterLeft.of_same {s t : State} (htr : t.htr = s.htr) (dmu : t.dmu = s.dmu) (cfg : t.cfg = s.cfg) : HeaterLeft s t := by
  refine ⟨cfg, ?_, by rw [htr], by rw [htr], fun fresh => ?_⟩
  · rw [htr]
    exact ZonesOff.refl _ _
  · unfold FiguresFresh
    rw [htr, dmu, cfg]
    exact fresh

theorem HeaterLeft.trans {s t u : State} (h : HeaterLeft s t) (k : HeaterLeft t u) : HeaterLeft s u :=
  ⟨k.cfg.trans h.cfg, h.zones.trans (by rw [← h.cfg]; exact k.zones), k.start.trans h.start, k.converted.trans h.converted,
    fun fresh => k.fresh (h.fresh fresh)⟩

theorem heaterLeft_resplit (s : State) : HeaterLeft s (resplit s) := by
  obtain ⟨split, -, -, -, start, converted⟩ := resplit_spec s
  obtain ⟨own, -, tMin, -, -, -, -, -, charger, heater⟩ := split_kept s.cfg.tPermit s.shu.limit s.dmu
  rw [← split] at tMin heater charger own
  exact ⟨rfl, zonesOff_resplit s, start, converted, fun fresh =>
    fresh.of_kept (zonesOff_resplit s).kept rfl tMin heater charger own⟩

theorem heaterLeft_moveTo (op : OpState) (s : State) : HeaterLeft s (moveTo op s) :=
  (HeaterLeft.of_same (t := regrant (setOp op s)) (by simp) (by simp) (by simp)).trans (heaterLeft_resplit _)

/-- The figures at the close of a session are recomputed from the zones (R67). -/
theorem departing_heater (reason : CloseReason) (code : Option FaultCode) (dest : OpState) (s : State) :
    HeaterLeft s (departing reason code dest s) ∧ FiguresFresh (departing reason code dest s) := by
  have htr : (departing reason code dest s).htr = s.htr.leaveSession s.cfg.doseLimit := by simp [departing]
  have cfg : (departing reason code dest s).cfg = s.cfg := by simp [departing]
  have dmu : (departing reason code dest s).dmu = (closeSession reason code s).dmu := by simp [departing]
  have off : ZonesOff s.cfg.doseLimit s.htr.zones (departing reason code dest s).htr.zones := by
    rw [htr]
    exact zonesOff_leaveSession _ _
  have closed : ZonesKept s.cfg.doseLimit (closeSession reason code s).htr.zones (departing reason code dest s).htr.zones := by
    rw [closeSession_htr]
    exact off.kept
  have agreed : FiguresFresh (closeSession reason code s) := refreshDemand_fresh _
  have fresh : FiguresFresh (departing reason code dest s) :=
    agreed.of_kept closed (cfg.trans (by simp)) (by rw [dmu]) (by rw [dmu]) (by rw [dmu]) (by rw [dmu])
  exact ⟨⟨cfg, off, by rw [htr]; rfl, by rw [htr]; rfl, fun _ => fresh⟩, fresh⟩

theorem heaterLeft_depart (reason : CloseReason) (code : Option FaultCode) (dest : OpState) (s : State) :
    HeaterLeft s (depart reason code dest s) ∧ FiguresFresh (depart reason code dest s) := by
  obtain ⟨left, fresh⟩ := departing_heater reason code dest s
  have last : HeaterLeft (departing reason code dest s) (depart reason code dest s) :=
    (HeaterLeft.of_same (t := regrant (departing reason code dest s)) (by simp) (by simp) (by simp)).trans
      ((heaterLeft_resplit _).trans (HeaterLeft.of_same rfl rfl rfl))
  exact ⟨left.trans last, last.fresh fresh⟩

/-- What a raise does to the heater and the figures: zones switched off at most, the figures agreeing still (R83, R163). -/
theorem heaterLeft_raise (c : FaultCode) (d : FaultDetail) (s : State) : HeaterLeft s (raise c d s) := by
  have noted : HeaterLeft s (recordFault c d s) := HeaterLeft.of_same rfl rfl rfl
  have entered : ∀ x : State, HeaterLeft x (enterHalted x) := fun x =>
    HeaterLeft.of_same (enterHalted_htr x) (enterHalted_dmu x) (enterHalted_cfg x)
  cases stop : isStop s.cfg.policies c with
  | false =>
    rw [raise_continue d stop]
    exact noted
  | true =>
    rw [raise_stop d stop, halt]
    refine noted.trans ?_
    split
    · exact (heaterLeft_depart _ _ _ _).1.trans (entered _)
    · exact (HeaterLeft.of_same (t := abandonSlot (recordFault c d s)) (by simp) (by simp) (by simp)).trans
        ((heaterLeft_moveTo _ _).trans (entered _))
    · exact (heaterLeft_moveTo _ _).trans (entered _)
    · exact HeaterLeft.of_same rfl rfl rfl

/-- A raise that leaves the operating state is recorded and nothing else. -/
theorem raise_same_op {c : FaultCode} {d : FaultDetail} {s : State} (same : (raise c d s).stc.op = s.stc.op) :
    raise c d s = recordFault c d s := by
  cases stop : isStop s.cfg.policies c with
  | false => exact raise_continue d stop
  | true =>
    cases takes : s.stc.op.takesFrames with
    | false => rw [raise_stop d stop, halt_off (s := recordFault c d s) takes]
    | true =>
      obtain ⟨halted, -⟩ := raise_halts d stop takes
      rw [← same, halted] at takes
      cases takes

end Sys2Proof.Proofs
end

section
/-! PROOF. A zone's change handed on (R72, R78 to R80): demand, grant, split, then the faults of a move to OUT. -/

namespace Sys2Proof.Proofs
open Sys2Proof.Machine

/-- The change of a zone handed on to demand, grant and split (R72, R78). -/
def zoneSettled (z : ZoneId) (new : Zone) (s : State) : State := settleDemand s.dmu (refreshDemand (setZone z new s))

theorem zoneChanged_out {z : ZoneId} {old new : Zone} {s : State} (was : old.state ≠ .out) (out : new.state = .out) :
    zoneChanged z old new s = raiseOut z (zoneSettled z new s) := if_pos ⟨was, out⟩

theorem zoneChanged_stays {z : ZoneId} {old new : Zone} {s : State} (h : ¬ (old.state ≠ .out ∧ new.state = .out)) :
    zoneChanged z old new s = zoneSettled z new s := if_neg h

theorem heaterLeft_settleDemand (before : Dmu) (s : State) : HeaterLeft s (settleDemand before s) := by
  unfold settleDemand
  split
  · exact heaterLeft_resplit s
  · exact (HeaterLeft.of_same (regrant_htr s) (regrant_dmu s) (regrant_cfg s)).trans (heaterLeft_resplit _)

/-- The zones after a change handed on, and the figures that follow it. -/
theorem zoneSettled_heater (z : ZoneId) (new : Zone) (s : State) :
    HeaterLeft (refreshDemand (setZone z new s)) (zoneSettled z new s) ∧ FiguresFresh (zoneSettled z new s) := by
  have left := heaterLeft_settleDemand s.dmu (refreshDemand (setZone z new s))
  exact ⟨left, left.fresh (refreshDemand_fresh _)⟩

theorem zoneSettled_demand (z : ZoneId) (new : Zone) (s : State) :
    DemandSettled (FiguresMoved s (zoneSettled z new s)) s (zoneSettled z new s) := by
  have settled : DemandSettled (FiguresMoved s (refreshDemand (setZone z new s))) s (zoneSettled z new s) :=
    settleDemand_settled (b := s) (s := refreshDemand (setZone z new s)) rfl rfl rfl
  obtain ⟨limit, dmu⟩ := settleDemand_figures s.dmu (refreshDemand (setZone z new s))
  obtain ⟨own, weight, -⟩ := split_kept (refreshDemand (setZone z new s)).cfg.tPermit limit (refreshDemand (setZone z new s)).dmu
  rw [← dmu] at own weight
  refine demandSettled_congr settled ?_ rfl rfl rfl rfl rfl rfl rfl rfl
  show ((zoneSettled z new s).dmu.ownDemand ≠ _ ∨ (zoneSettled z new s).dmu.weight ≠ _) ↔ _
  rw [show (zoneSettled z new s).dmu.ownDemand = _ from own, show (zoneSettled z new s).dmu.weight = _ from weight]

/-! ## The faults of a move to OUT (R79, R80) -/

theorem raiseOut_eq (z : ZoneId) (s : State) : raiseOut z s = raiseAllOut (.zone z (causeOf (s.htr.zones.get z)))
    (recordFault .heaterZone (.zone z (causeOf (s.htr.zones.get z))) s) := rfl

theorem allOut_iff (q : Quad Zone) : (q.list.all fun z => decide (z.state = .out)) = true ↔ ∀ w, (q.get w).state = .out := by
  simp only [Quad.list, List.all_cons, List.all_nil, Bool.and_true, Bool.and_eq_true, decide_eq_true_eq]
  constructor
  · rintro ⟨h1, h2, h3, h4⟩ w
    cases w
    · exact h1
    · exact h2
    · exact h3
    · exact h4
  · exact fun h => ⟨h .z1, h .z2, h .z3, h .z4⟩

theorem raiseAllOut_last {d : FaultDetail} {s : State} (all : ∀ w, (s.htr.zones.get w).state = .out) :
    raiseAllOut d s = raise .heaterAllOut d s := if_pos ((allOut_iff _).2 all)

theorem raiseAllOut_others {d : FaultDetail} {s : State} (others : ¬ ∀ w, (s.htr.zones.get w).state = .out) :
    raiseAllOut d s = s := if_neg (mt (allOut_iff _).1 others)

theorem heaterLeft_raiseOut (z : ZoneId) (s : State) : HeaterLeft s (raiseOut z s) := by
  have noted : HeaterLeft s (recordFault .heaterZone (.zone z (causeOf (s.htr.zones.get z))) s) := HeaterLeft.of_same rfl rfl rfl
  rw [raiseOut_eq, raiseAllOut]
  split
  · exact noted.trans (heaterLeft_raise _ _ _)
  · exact noted

/-- A move to OUT whose faults leave the operating state leaves shares, demand and line as well (R80). -/
theorem raiseOut_same_op {z : ZoneId} {s : State} (same : (raiseOut z s).stc.op = s.stc.op) : (raiseOut z s).shu = s.shu ∧
    (raiseOut z s).dmu = s.dmu ∧ (raiseOut z s).dli = s.dli ∧ (raiseOut z s).stc = s.stc ∧
    (raiseOut z s).grantInputs = s.grantInputs := by
  rw [raiseOut_eq] at same ⊢
  by_cases all : ∀ w, (s.htr.zones.get w).state = .out
  · rw [raiseAllOut_last (by exact all)] at same ⊢
    rw [raise_same_op (by exact same)]
    exact ⟨rfl, rfl, rfl, rfl, rfl⟩
  · rw [raiseAllOut_others (by exact all)]
    exact ⟨rfl, rfl, rfl, rfl, rfl⟩

/-- What the faults of a move to OUT leave (R163). -/
theorem raiseOut_kept (z : ZoneId) (s : State) : let t := raiseOut z s
    t.trm = s.trm ∧ t.trc = s.trc ∧ t.now = s.now ∧ t.pending = s.pending := by
  intro t
  have is : t = raiseAllOut (.zone z (causeOf (s.htr.zones.get z)))
    (recordFault .heaterZone (.zone z (causeOf (s.htr.zones.get z))) s) := raiseOut_eq z s
  rw [is, raiseAllOut]
  split
  · exact ⟨raise_trm _ _ _, raise_trc _ _ _, raise_now _ _ _, raise_pending _ _ _⟩
  · exact ⟨rfl, rfl, rfl, rfl⟩

/-- The faults themselves, from the state `b` before the event (R79, R80). -/
theorem raiseOut_raised {z : ZoneId} {cause : OutCause} {b s : State} (out : (s.htr.zones.get z).state = .out)
    (why : causeOf (s.htr.zones.get z) = cause)
    (others : ∀ w, w ≠ z → ((s.htr.zones.get w).state = .out ↔ (b.htr.zones.get w).state = .out)) (stc : s.stc = b.stc)
    (flt : s.flt = b.flt) (cfg : s.cfg = b.cfg) : OutRaised z cause b (raiseOut z s) := by
  have time : clock s = clock b := by rw [clock, clock, stc]
  have all : (∀ w, w ≠ z → (b.htr.zones.get w).state = .out) ↔ ∀ w, (s.htr.zones.get w).state = .out := by
    constructor
    · intro h w
      by_cases is : w = z
      · rw [is]
        exact out
      · exact (others w is).2 (h w is)
    · exact fun h w other => (others w other).1 (h w)
  rw [raiseOut_eq, why]
  have recorded : (recordFault .heaterZone (.zone z cause) s).flt =
      faultAdded { time := clock b, code := .heaterZone, detail := .zone z cause, state := b.stc.op } b.flt := by
    rw [recordFault_flt, time, stc, flt]
  refine ⟨?_, fun last => ?_, fun some_left => ?_⟩
  · unfold raiseAllOut
    split
    · exact (faultRaised_raise _ _ _).2
    · rfl
  · rw [raiseAllOut_last (by exact all.1 last)]
    refine ⟨?_, fun policy takes => ?_, fun stays => ?_⟩
    · rw [(faultRaised_raise _ _ _).1, recorded]
      show faultAdded { time := clock s, code := _, detail := _, state := s.stc.op } _ = _
      rw [time, stc]
    · exact (raise_halts (c := .heaterAllOut) _ (s := recordFault .heaterZone (.zone z cause) s)
        (by show s.cfg.policies.heaterAllOut = true; rw [cfg]; exact policy)
        (by show s.stc.op.takesFrames = true; rw [stc]; exact takes)).1
    · rcases stays with policy | off
      · rw [raise_continue _ (by show s.cfg.policies.heaterAllOut = false; rw [cfg]; exact policy)]
        exact stc
      · cases policy : s.cfg.policies.heaterAllOut with
        | false =>
          rw [raise_continue _ (by exact policy)]
          exact stc
        | true =>
          rw [raise_stop _ (by exact policy), halt_off (by show s.stc.op.takesFrames = false; rw [stc]; exact off)]
          exact stc
  · rw [raiseAllOut_others (by exact mt all.2 some_left)]
    exact ⟨recorded, stc⟩

/-! ## The change and the event's tail -/

/-- The event's tail changes a zone from WAITING to HEATING at most (R74, R75). -/
theorem finish_zone (force : Bool) (before after : State) (z : ZoneId) :
    (finish force before after).htr.zones.get z = after.htr.zones.get z ∨ (after.htr.zones.get z).state = .waiting ∧
      (finish force before after).htr.zones.get z = { after.htr.zones.get z with state := .heating } := by
  have tested : (after.htr.switchOn after.now (inSession after) after.dmu.heaterAllow after.cfg).zones.get z = after.htr.zones.get z ∨
      (after.htr.zones.get z).state = .waiting ∧
      (after.htr.switchOn after.now (inSession after) after.dmu.heaterAllow after.cfg).zones.get z =
        { after.htr.zones.get z with state := .heating } := by
    unfold Htr.switchOn
    split
    · exact .inl rfl
    · next w found =>
      dsimp only
      rw [Quad.get_set]
      split
      · next is =>
        subst is
        exact .inr ⟨candidate_waiting found, rfl⟩
      · exact .inl rfl
  unfold finish
  dsimp only
  rw [(startIdle_kept _ _ _ _).1]
  split
  · exact tested
  · exact .inl rfl

/-- What follows the change of a zone, from the state `s0` of the event (R30, R31, R37, R62, R65, R72). -/
def HeaterFollowed (s0 : State) (z : ZoneId) (q : State) : Prop :=
  q.dmu.tMin = tMinOf q.htr.zones ∧
    q.dmu.heaterDemand = ratedSum Zone.asks q.htr.zones q.cfg.ratings ∧
    q.dmu.ownDemand = min q.cfg.ist (q.dmu.chargerDemand + q.dmu.heaterDemand) ∧ q.cfg = s0.cfg ∧ q.trm = s0.trm ∧
    q.trc = s0.trc ∧ q.now = s0.now ∧ q.pending = s0.pending ∧
    (q.stc.op = s0.stc.op → DemandSettled (FiguresMoved s0 q) s0 q) ∧
    ∀ w, w ≠ z → (q.htr.zones.get w).temp = (s0.htr.zones.get w).temp ∧
      HeatTimeKept s0.cfg.doseLimit (s0.htr.zones.get w) (q.htr.zones.get w) ∧
      (q.htr.zones.get w).outCause = (s0.htr.zones.get w).outCause

theorem zoneChanged_heater (z : ZoneId) (old new : Zone) (s : State) :
    HeaterLeft (refreshDemand (setZone z new s)) (zoneChanged z old new s) ∧ FiguresFresh (zoneChanged z old new s) := by
  obtain ⟨left, fresh⟩ := zoneSettled_heater z new s
  unfold zoneChanged
  dsimp only
  split
  · exact ⟨left.trans (heaterLeft_raiseOut z _), (heaterLeft_raiseOut z _).fresh fresh⟩
  · exact ⟨left, fresh⟩

theorem zoneSettled_frame (z : ZoneId) (new : Zone) (s : State) : let t := zoneSettled z new s
    t.trm = s.trm ∧ t.trc = s.trc ∧ t.now = s.now ∧ t.pending = s.pending ∧ t.stc = s.stc ∧ t.flt = s.flt ∧ t.cfg = s.cfg := by
  simp [zoneSettled, setZone]

theorem zoneChanged_frame (z : ZoneId) (old new : Zone) (s : State) : let t := zoneChanged z old new s
    t.trm = s.trm ∧ t.trc = s.trc ∧ t.now = s.now ∧ t.pending = s.pending ∧
      (t.stc.op = s.stc.op → DemandSettled (FiguresMoved s t) s t) := by
  intro t
  obtain ⟨trm, trc, now, pending, stc, -⟩ := zoneSettled_frame z new s
  by_cases out : old.state ≠ .out ∧ new.state = .out
  · rw [show t = _ from zoneChanged_out out.1 out.2]
    obtain ⟨trm', trc', now', pending'⟩ := raiseOut_kept z (zoneSettled z new s)
    refine ⟨trm'.trans trm, trc'.trans trc, now'.trans now, pending'.trans pending, fun same => ?_⟩
    have op : (raiseOut z (zoneSettled z new s)).stc.op = (zoneSettled z new s).stc.op := by rw [same, stc]
    obtain ⟨shu, dmu, dli, stc', inputs⟩ := raiseOut_same_op op
    refine demandSettled_congr (zoneSettled_demand z new s) ?_ rfl rfl rfl shu dmu dli stc' inputs
    rw [FiguresMoved, FiguresMoved, dmu]
  · rw [show t = _ from zoneChanged_stays out]
    exact ⟨trm, trc, now, pending, fun _ => zoneSettled_demand z new s⟩

section
variable {z : ZoneId} {old new : Zone} {s0 s : State} (base : s = { s0 with htr := s.htr }) (zones : s.htr.zones = s0.htr.zones)
include base zones

/-- The zones that an event leaves in which one has changed (R72). -/
theorem zoneChanged_zones (force : Bool) : let q := finish force s0 (zoneChanged z old new s)
    ZonesKept s0.cfg.doseLimit (s0.htr.zones.set z new) q.htr.zones ∧
      (new.heats = false → q.htr.zones.get z = new ∨ new.state = .waiting ∧ q.htr.zones.get z = { new with state := .heating }) ∧
      q.htr.cycleStart = s.htr.cycleStart ∧ q.htr.converted = s.htr.converted := by
  intro q
  obtain ⟨⟨cfg, off, start, converted, -⟩, -⟩ := zoneChanged_heater z old new s
  obtain ⟨tail, -, start', converted'⟩ := finish_kept force s0 (zoneChanged z old new s)
  have limit : (refreshDemand (setZone z new s)).cfg.doseLimit = s0.cfg.doseLimit := by rw [base]; rfl
  have set_ : (refreshDemand (setZone z new s)).htr.zones = s0.htr.zones.set z new := by
    rw [← zones]
    rfl
  rw [cfg] at tail
  rw [limit] at off tail
  rw [set_] at off
  refine ⟨off.kept.trans tail, fun still => ?_, start'.trans start, converted'.trans converted⟩
  have here : (s0.htr.zones.set z new).get z = new := by rw [Quad.get_set, if_pos rfl]
  have left := off.still z (by rw [here]; exact still)
  rw [here] at left
  have switched := finish_zone force s0 (zoneChanged z old new s) z
  rw [left] at switched
  exact switched

theorem zoneChanged_followed (force : Bool) : HeaterFollowed s0 z (finish force s0 (zoneChanged z old new s)) := by
  obtain ⟨kept, -⟩ := zoneChanged_zones (new := new) (old := old) base zones force
  obtain ⟨⟨cfg, -⟩, fresh⟩ := zoneChanged_heater z old new s
  obtain ⟨trm, trc, now, pending, settled⟩ := zoneChanged_frame z old new s
  obtain ⟨tail, -⟩ := finish_kept force s0 (zoneChanged z old new s)
  obtain ⟨tMin, heater, own⟩ := fresh.of_kept (t := finish force s0 (zoneChanged z old new s)) tail rfl rfl rfl rfl rfl
  refine ⟨tMin, heater, own, ?_, ?_, ?_, ?_, ?_, fun same => ?_, fun w other => ?_⟩
  · exact cfg.trans (by rw [base]; rfl)
  · exact trm.trans (by rw [base])
  · exact trc.trans (by rw [base])
  · exact now.trans (by rw [base])
  · exact pending.trans (by rw [base])
  · have op : (zoneChanged z old new s).stc.op = s.stc.op := by
      rw [base]
      rw [base] at same
      exact same
    refine demandSettled_congr (settled op) ?_ ?_ ?_ ?_ rfl rfl rfl rfl rfl
    · rw [FiguresMoved, FiguresMoved, base]
      rfl
    · rw [base]
    · rw [base]
    · rw [base]
  · obtain ⟨temp, heat, cause, -⟩ := kept w
    rw [Quad.get_set, if_neg other] at temp heat cause
    exact ⟨temp, heat, cause⟩

theorem zoneChanged_raised {cause : OutCause} (force : Bool) (was : old.state ≠ .out) (out : new.state = .out)
    (why : causeOf new = cause) : OutRaised z cause s0 (finish force s0 (zoneChanged z old new s)) := by
  obtain ⟨-, -, -, -, stc, flt, cfg⟩ := zoneSettled_frame z new s
  obtain ⟨⟨-, off, -⟩, -⟩ := zoneSettled_heater z new s
  have set_ : (refreshDemand (setZone z new s)).htr.zones = s0.htr.zones.set z new := by
    rw [← zones]
    rfl
  rw [set_] at off
  have here : (s0.htr.zones.set z new).get z = new := by rw [Quad.get_set, if_pos rfl]
  have zone : (zoneSettled z new s).htr.zones.get z = new := by
    have left := off.still z (by rw [here]; exact heats_false (by rw [out]; decide))
    rwa [here] at left
  have raised : OutRaised z cause s0 (raiseOut z (zoneSettled z new s)) := by
    refine raiseOut_raised (by rw [zone]; exact out) (by rw [zone]; exact why) (fun w other => ?_) ?_ ?_ ?_
    · obtain ⟨-, -, -, same, -⟩ := off.kept w
      rwa [Quad.get_set, if_neg other] at same
    · rw [stc, base]
    · rw [flt, base]
    · rw [cfg, base]
  rw [zoneChanged_out was out]
  exact raised

end

end Sys2Proof.Proofs
end

section
/-! PROOF. The heater's events (R70 to R75, R78 to R80, R82). -/

namespace Sys2Proof.Proofs
open Sys2Proof.Machine

/-! ## The switch-on test (R74, R75) -/

theorem candidate_iff {b : Bool} {allow : Nat} {cfg : Settings} {h : Htr} {z : ZoneId} : h.candidate b allow cfg = some z ↔
    firstWaiting cfg.zoneOrder h.zones = some z ∧ b = true ∧ h.window = false ∧ h.stagger = none ∧
      ratedSum Zone.heats h.zones cfg.ratings + cfg.ratings.get z ≤ allow := by
  unfold Htr.candidate
  cases first : firstWaiting cfg.zoneOrder h.zones with
  | none => simp
  | some w =>
    constructor
    · intro found
      dsimp only at found
      split at found
      · next test =>
        cases found
        simpa [and_assoc] using test
      · cases found
    · rintro ⟨is, on, open_, idle, fits⟩
      cases is
      exact if_pos (by simp [on, open_, idle, fits])

/-- The switch-on test takes a zone: it heats, the contactor closes, the idle timer stops, the stagger starts (R74, R81). -/
theorem finish_switches {before after : State} {z : ZoneId}
    (found : after.htr.candidate (inSession after) after.dmu.heaterAllow after.cfg = some z) :
    finish true before after = { after with htr := { after.htr with
      zones := after.htr.zones.set z { after.htr.zones.get z with state := .heating }, contactor := true, idle := none
      stagger := some (after.now + 2000000) } } := by
  have on : (after.htr.zones.set z { after.htr.zones.get z with state := .heating }).anyHeating = true :=
    (anyHeating_iff _).2 ⟨z, by rw [Quad.get_set, if_pos rfl]; rfl⟩
  have switched : after.htr.switchOn after.now (inSession after) after.dmu.heaterAllow after.cfg = { after.htr with
      zones := after.htr.zones.set z { after.htr.zones.get z with state := .heating }, contactor := true, idle := none
      stagger := some (after.now + 2000000) } := by
    rw [Htr.switchOn, found]
    rfl
  unfold finish
  dsimp only
  rw [Bool.true_or, if_pos rfl, switched, Htr.startIdle, if_neg (by simp [on])]

/-- Where the test takes another zone or none, the zone stays as it is. -/
theorem finish_passes {before after : State} {z : ZoneId}
    (other : after.htr.candidate (inSession after) after.dmu.heaterAllow after.cfg ≠ some z) :
    (finish true before after).htr.zones.get z = after.htr.zones.get z := by
  unfold finish
  dsimp only
  rw [(startIdle_kept _ _ _ _).1, Bool.true_or, if_pos rfl, Htr.switchOn]
  split
  · rfl
  · next w found =>
    dsimp only
    rw [Quad.get_set, if_neg]
    intro is
    rw [is] at other
    exact other found

theorem startIdle_steady {h : Htr} {before : Quad Zone} (now : Nat) (session : Bool) (zones : h.zones = before) :
    h.startIdle now session before.anyHeating = h := by
  unfold Htr.startIdle
  rw [zones]
  cases before.anyHeating <;> simp

/-- A switch-on test that takes no zone leaves what the event's work left. -/
theorem finish_takes_none {before after : State}
    (none : after.htr.candidate (inSession after) after.dmu.heaterAllow after.cfg = none) (zones : after.htr.zones = before.htr.zones) :
    finish true before after = after := by
  unfold finish
  rw [Htr.switchOn, none]
  simp [startIdle_steady _ _ zones]

/-- An event that brings no test and moves no zone leaves what its work left. -/
theorem finish_untested {before after : State} (quiet : testDue before after = false) (zones : after.htr.zones = before.htr.zones) :
    finish false before after = after := by
  unfold finish
  rw [quiet]
  simp [startIdle_steady _ _ zones]

/-! ## Sums and orders over the zones -/

theorem ratedSum_set {p : Zone → Bool} {q : Quad Zone} {z : ZoneId} {x : Zone} (same : p x = p (q.get z)) (ratings : Quad Nat) :
    ratedSum p (q.set z x) ratings = ratedSum p q ratings := by
  have each : ∀ w, p ((q.set z x).get w) = p (q.get w) := fun w => by
    rw [Quad.get_set]
    split
    · next is => rw [is, same]
    · rfl
  simp only [ratedSum, allZones, each]

theorem firstWaiting_congr {p q : Quad Zone} (same : ∀ w, (p.get w).state = (q.get w).state) (order : List ZoneId) :
    firstWaiting order p = firstWaiting order q := by
  unfold firstWaiting
  exact congrArg (fun f => order.find? f) (funext fun w => by rw [same])

/-! ## A conversion (R70, R71) -/

section
variable {cfg : Settings} {d : Int} {x : Zone}

theorem nextState_out {c : Conversion} (out : x.state = .out) : x.nextState cfg c = .out := by
  unfold Zone.nextState
  rw [out]

theorem nextState_broken {c : Conversion} (broken : c = .openCircuit ∨ c = .shortCircuit) : x.nextState cfg c = .out := by
  rcases broken with rfl | rfl <;> cases h : x.state <;> simp [Zone.nextState, h]

theorem nextState_hot (hot : cfg.tCut < d) : x.nextState cfg (.reading d) = .out := by
  cases h : x.state <;> simp [Zone.nextState, h, hot]

/-- A reading within the cut-off, by the zone's state (R71). -/
theorem nextState_reading (on : x.state ≠ .out) (cool : d ≤ cfg.tCut) : let n := x.nextState cfg (.reading d)
    n ≠ .out ∧
      (n = .warm ↔ x.state = .warm ∧ cfg.tTarget ≤ d ∨ x.state = .waiting ∧ cfg.tTarget ≤ d ∨
        x.state = .heating ∧ cfg.tTarget + cfg.hysteresis ≤ d) ∧
      (x.state ≠ .heating → d < cfg.tTarget → n = .waiting) ∧
      (x.state = .heating → d < cfg.tTarget + cfg.hysteresis → n = .heating) ∧
      (x.state ≠ .heating → n ≠ .heating) := by
  intro n
  have cut : ¬ cfg.tCut < d := Int.not_lt.2 cool
  cases state : x.state with
  | out => exact absurd state on
  | warm =>
    have is : n = if d < cfg.tTarget then .waiting else .warm := by simp [n, Zone.nextState, state, cut]
    rw [is]
    split <;> simp_all
  | waiting =>
    have is : n = if cfg.tTarget ≤ d then .warm else .waiting := by simp [n, Zone.nextState, state, cut]
    rw [is]
    split <;> simp_all
  | heating =>
    have is : n = if cfg.tTarget + cfg.hysteresis ≤ d then .warm else .heating := by simp [n, Zone.nextState, state, cut]
    rw [is]
    split <;> simp_all

end

/-- The zone's conversion is still to come in the cycle that runs (R70). -/
def Turn (z : ZoneId) (s : State) (c : Nat) : Prop := s.htr.cycleStart = some c ∧ s.htr.converted.get z ≤ (s.now - c) / 1000000

theorem turn_converts {z : ZoneId} {s : State} {c : Nat} (turn : Turn z s c) : s.htr.converts s.now z = true ∧
    s.htr.noteConversion s.now z = { s.htr with converted := s.htr.converted.set z ((s.now - c) / 1000000 + 1) } := by
  obtain ⟨start, to_come⟩ := turn
  have number : s.htr.cycleNumber s.now = some ((s.now - c) / 1000000 + 1) := by
    rw [Htr.cycleNumber, start]
    rfl
  rw [Htr.converts, Htr.noteConversion, number]
  exact ⟨decide_eq_true (Nat.lt_succ_of_le to_come), rfl⟩

theorem no_turn_converts {z : ZoneId} {s : State} (none : ∀ c, ¬ Turn z s c) : s.htr.converts s.now z = false := by
  cases start : s.htr.cycleStart with
  | none => rw [Htr.converts, Htr.cycleNumber, start]; rfl
  | some c =>
    rw [Htr.converts, Htr.cycleNumber, start]
    exact decide_eq_false fun to_come => none c ⟨start, Nat.le_of_lt_succ to_come⟩

theorem conversion_changes {z : ZoneId} {c : Conversion} {s : State} {n : Nat} (turn : Turn z s n)
    (tells : conversionTells (settledConversion c) (s.htr.zones.get z) = true) :
    conversionDue z c s = true ∧ conversion z c s = zoneChanged z (s.htr.zones.get z)
      ((s.htr.zones.get z).convert s.cfg (settledConversion c))
      { s with htr := { s.htr with converted := s.htr.converted.set z ((s.now - n) / 1000000 + 1) } } := by
  obtain ⟨converts, noted⟩ := turn_converts turn
  have due : conversionDue z c s = true := by rw [conversionDue, converts, tells]; rfl
  refine ⟨due, ?_⟩
  rw [conversion, if_pos converts]
  dsimp only
  rw [if_pos due, noted]

theorem conversion_silent {z : ZoneId} {c : Conversion} {s : State} {n : Nat} (turn : Turn z s n)
    (silent : conversionTells (settledConversion c) (s.htr.zones.get z) = false) :
    conversionDue z c s = false ∧ conversion z c s =
      { s with htr := { s.htr with converted := s.htr.converted.set z ((s.now - n) / 1000000 + 1) } } := by
  obtain ⟨converts, noted⟩ := turn_converts turn
  have due : conversionDue z c s = false := by rw [conversionDue, converts, silent]; rfl
  refine ⟨due, ?_⟩
  rw [conversion, if_pos converts]
  dsimp only
  rw [if_neg (by rw [due]; decide), noted]

/-! ## The switch-on test after a conversion (R74, R76) -/

section
variable (z : ZoneId) (new : Zone) (s : State)

theorem zoneSettled_htr : (zoneSettled z new s).htr = { s.htr with
    zones := shedZones s.cfg.doseLimit (zoneSettled z new s).dmu.heaterAllow s.cfg.ratings s.cfg.zoneOrder.reverse
      (s.htr.zones.set z new) } := by
  unfold zoneSettled settleDemand
  split
  · rfl
  · have split : ∀ r : State, (resplit r).htr = r.htr.obey (resplit r).dmu.heaterAllow r.cfg := fun _ => rfl
    rw [split, regrant_htr, regrant_cfg]
    rfl

variable {z new s}

theorem zoneSettled_fit (same : new.heats = (s.htr.zones.get z).heats)
    (fits : ratedSum Zone.heats s.htr.zones s.cfg.ratings ≤ (zoneSettled z new s).dmu.heaterAllow) :
    (zoneSettled z new s).htr.zones = s.htr.zones.set z new := by
  rw [zoneSettled_htr]
  exact shedZones_fit (by rw [ratedSum_set same]; exact fits) _

/-- What it takes for the test to take the zone that has changed. -/
theorem zoneSettled_candidate (w : ZoneId) : let y := zoneSettled z new s
    y.htr.candidate (inSession y) y.dmu.heaterAllow y.cfg = some w ↔
      firstWaiting s.cfg.zoneOrder y.htr.zones = some w ∧ s.stc.op = .session ∧ s.htr.window = false ∧ s.htr.stagger = none ∧
        ratedSum Zone.heats y.htr.zones s.cfg.ratings + s.cfg.ratings.get w ≤ y.dmu.heaterAllow := by
  intro y
  obtain ⟨-, -, -, -, stc, -, cfg⟩ := zoneSettled_frame z new s
  have htr := zoneSettled_htr z new s
  have window : y.htr.window = s.htr.window := by rw [show y.htr = _ from htr]
  have stagger : y.htr.stagger = s.htr.stagger := by rw [show y.htr = _ from htr]
  rw [candidate_iff, window, stagger, show y.cfg = s.cfg from cfg, inSession, show y.stc = s.stc from stc, decide_eq_true_eq]

end

end Sys2Proof.Proofs
end

section
/-! PROOF. The obligation about the heater's events (O54), by event. -/

namespace Sys2Proof.Proofs
open Sys2Proof.Machine

/-! ## A conversion with a valid reading (R71, R72) -/

theorem settled_reading {d : Int} (low : -500 ≤ d) (high : d ≤ 1000) : settledConversion (.reading d) = .reading d := by
  have settled : max (-500) (min d 1000) = d := by omega
  rw [settledConversion, settled]

theorem settled_broken {x : Conversion} (broken : x = .openCircuit ∨ x = .shortCircuit) : settledConversion x = x := by
  rcases broken with rfl | rfl <;> rfl

theorem heatTimeShort_heating {limit : Nat} {x : Zone} (h : x.state = .heating) :
    x.heatTimeShort limit = min x.heatTime (limit * 1000000 - 1) := if_pos (heats_iff.2 h)

theorem heatTimeShort_still {limit : Nat} {x : Zone} (h : x.state ≠ .heating) : x.heatTimeShort limit = x.heatTime :=
  if_neg (by rw [heats_false h]; decide)

section
variable {cfg : Settings} {c : Conversion} {x : Zone}

theorem convert_state : (x.convert cfg c).state = x.nextState cfg c := rfl

theorem convert_heatTime_ended (ended : x.nextState cfg c ≠ .heating) :
    (x.convert cfg c).heatTime = x.heatTimeShort cfg.doseLimit := if_neg ended

theorem convert_cause_moved (out : x.nextState cfg c = .out) (was : x.state ≠ .out) :
    (x.convert cfg c).outCause = some (outCauseOf c) := if_pos ⟨out, was⟩

theorem convert_cause_kept (h : ¬ (x.nextState cfg c = .out ∧ x.state ≠ .out)) : (x.convert cfg c).outCause = x.outCause := if_neg h

/-- A broken sensor takes its zone OUT (R71, R78). -/
theorem convert_broken (broken : c = .openCircuit ∨ c = .shortCircuit) (was : x.state ≠ .out) : x.convert cfg c = { x with
    state := .out, outCause := some (if c = .openCircuit then .sensorOpen else .sensorShort)
    heatTime := if x.state = .heating then min x.heatTime (cfg.doseLimit * 1000000 - 1) else x.heatTime } := by
  have out : x.nextState cfg c = .out := nextState_broken broken
  have short : x.heatTimeShort cfg.doseLimit =
      if x.state = .heating then min x.heatTime (cfg.doseLimit * 1000000 - 1) else x.heatTime := by
    split
    · next hot => exact heatTimeShort_heating hot
    · next cold => exact heatTimeShort_still cold
  unfold Zone.convert
  rw [out, short]
  rcases broken with rfl | rfl <;> simp [was, outCauseOf]

end

/-- A zone not HEATING before a reading is not HEATING by it (R71). -/
theorem nextState_not_heating {cfg : Settings} {d : Int} {x : Zone} (still : x.state ≠ .heating) :
    x.nextState cfg (.reading d) ≠ .heating := by
  by_cases out : x.state = .out
  · rw [nextState_out out]
    decide
  · by_cases hot : cfg.tCut < d
    · rw [nextState_hot hot]
      decide
    · exact (nextState_reading out (Int.not_lt.1 hot)).2.2.2.2 still

/-- Within the cut-off the zone's change is handed on and no more (R72). -/
theorem reading_settled {z : ZoneId} {d : Int} {cfg : Settings} {x : Zone} {s : State} (was : x.state ≠ .out) (cool : d ≤ cfg.tCut) :
    zoneChanged z x (x.convert cfg (.reading d)) s = zoneSettled z (x.convert cfg (.reading d)) s :=
  zoneChanged_stays fun h => (nextState_reading was cool).1 h.2

section
variable {z : ZoneId} {d : Int} {s0 s : State} (base : s = { s0 with htr := s.htr }) (zones : s.htr.zones = s0.htr.zones)
include base zones

/-- What a reading leaves of its zone, whatever the zone's state was (R71, R78). -/
theorem reading_zone : let old := s0.htr.zones.get z
    let q := finish true s0 (zoneChanged z old (old.convert s0.cfg (.reading d)) s)
    let x := q.htr.zones.get z
    x.temp = some d ∧ (old.state ≠ .heating → x.heatTime = old.heatTime) ∧
      (old.state = .heating → x.state = .out ∨ x.state = .warm →
        x.heatTime = min old.heatTime (s0.cfg.doseLimit * 1000000 - 1)) ∧
      (x.state = .out ↔ old.nextState s0.cfg (.reading d) = .out) ∧
      (x.state = .warm ↔ old.nextState s0.cfg (.reading d) = .warm) ∧
      (old.state = .out → x.outCause = old.outCause) ∧
      (old.state ≠ .out → s0.cfg.tCut < d → x.outCause = some .overtemp) := by
  intro old q x
  obtain ⟨kept, still, -⟩ := zoneChanged_zones (z := z) (old := old) (new := old.convert s0.cfg (.reading d)) base zones true
  obtain ⟨temp, -, cause, out, warm⟩ := kept z
  rw [Quad.get_set, if_pos rfl] at temp cause out warm
  have ended : old.nextState s0.cfg (.reading d) ≠ .heating → x.heatTime = old.heatTimeShort s0.cfg.doseLimit := fun n => by
    rw [← convert_heatTime_ended n]
    rcases still (heats_false n) with same | ⟨-, same⟩
    · rw [show x = _ from same]
    · rw [show x = _ from same]
  refine ⟨temp, fun cold => ?_, fun hot gone => ?_, out, warm, fun was => ?_, fun was hot => ?_⟩
  · rw [ended (nextState_not_heating cold), heatTimeShort_still cold]
  · rw [ended, heatTimeShort_heating hot]
    rcases gone with is | is
    · rw [show old.nextState s0.cfg (.reading d) = .out from out.1 is]
      decide
    · rw [show old.nextState s0.cfg (.reading d) = .warm from warm.1 is]
      decide
  · exact cause.trans (convert_cause_kept fun h => h.2 was)
  · exact cause.trans (convert_cause_moved (nextState_hot hot) was)

variable (was : (s0.htr.zones.get z).state ≠ .out) (cool : d ≤ s0.cfg.tCut)
include was cool

/-- A cold zone that does not heat waits, or the switch-on test takes it (R71, R74). -/
theorem reading_asks (still : (s0.htr.zones.get z).state ≠ .heating) (cold : d < s0.cfg.tTarget) :
    let old := s0.htr.zones.get z
    let q := finish true s0 (zoneChanged z old (old.convert s0.cfg (.reading d)) s)
    let heating := ratedSum Zone.heats s0.htr.zones s0.cfg.ratings
    let asking := s0.htr.zones.set z { old with state := .waiting }
    (s0.stc.op ≠ .session ∨ s.htr.window = true ∨ s.htr.stagger ≠ none ∨ q.dmu.heaterAllow < s0.cfg.ratings.get z →
      (q.htr.zones.get z).state = .waiting) ∧
    (s0.stc.op = .session → s.htr.window = false → s.htr.stagger = none → firstWaiting s0.cfg.zoneOrder asking = some z →
      heating + s0.cfg.ratings.get z ≤ q.dmu.heaterAllow → (q.htr.zones.get z).state = .heating ∧ q.htr.contactor = true ∧
        q.htr.idle = none ∧ q.htr.stagger = some (s0.now + 2000000)) ∧
    (s0.stc.op = .session → heating ≤ q.dmu.heaterAllow → firstWaiting s0.cfg.zoneOrder asking ≠ some z ∨
      q.dmu.heaterAllow < heating + s0.cfg.ratings.get z → (q.htr.zones.get z).state = .waiting) := by
  intro old q heating asking
  obtain ⟨-, -, waits, -, cools⟩ := nextState_reading was cool
  have waiting : (old.convert s0.cfg (.reading d)).state = .waiting := waits still cold
  have off : (old.convert s0.cfg (.reading d)).heats = false := heats_false (cools still)
  have same : (old.convert s0.cfg (.reading d)).heats = (s.htr.zones.get z).heats := by
    rw [off, zones]
    exact (heats_false still).symm
  have eq : q = finish true s0 (zoneSettled z (old.convert s0.cfg (.reading d)) s) := by
    show finish true s0 (zoneChanged z old (old.convert s0.cfg (.reading d)) s) = _
    rw [reading_settled was cool]
  have cfg : s.cfg = s0.cfg := by rw [base]
  have stc : s.stc = s0.stc := by rw [base]
  have now : (zoneSettled z (old.convert s0.cfg (.reading d)) s).now = s0.now := by
    obtain ⟨-, -, now, -⟩ := zoneSettled_frame z (old.convert s0.cfg (.reading d)) s
    rw [now, base]
  have left : ((zoneSettled z (old.convert s0.cfg (.reading d)) s).htr.zones.get z).state = .waiting := by
    obtain ⟨⟨-, zones', -⟩, -⟩ := zoneSettled_heater z (old.convert s0.cfg (.reading d)) s
    have here : ((refreshDemand (setZone z (old.convert s0.cfg (.reading d)) s)).htr.zones).get z = old.convert s0.cfg (.reading d) := by
      show (s.htr.zones.set z _).get z = _
      rw [Quad.get_set, if_pos rfl]
    rw [zones'.still z (by rw [here]; exact off), here]
    exact waiting
  have states : ∀ w, ((s.htr.zones.set z (old.convert s0.cfg (.reading d))).get w).state = (asking.get w).state := fun w => by
    rw [zones, Quad.get_set, Quad.get_set]
    split
    · exact waiting
    · rfl
  have candidate := zoneSettled_candidate (z := z) (new := old.convert s0.cfg (.reading d)) (s := s) z
  have fit := zoneSettled_fit (z := z) (new := old.convert s0.cfg (.reading d)) (s := s) same
  have sum : ratedSum Zone.heats (s.htr.zones.set z (old.convert s0.cfg (.reading d))) s0.cfg.ratings = heating := by
    rw [ratedSum_set same, zones]
  have before : ratedSum Zone.heats s.htr.zones s.cfg.ratings = heating := by rw [zones, cfg]
  rw [eq]
  generalize zoneSettled z (old.convert s0.cfg (.reading d)) s = y at *
  rw [cfg, stc] at candidate
  rw [before] at fit
  refine ⟨fun blocked => ?_, fun session open_ idle first fits => ?_, fun session fits other => ?_⟩
  · rw [finish_passes]
    · exact left
    · intro found
      obtain ⟨-, session, open_, idle, fits⟩ := candidate.1 found
      rcases blocked with no | no | no | no
      · exact no session
      · exact Bool.noConfusion (open_.symm.trans no)
      · exact no idle
      · exact Nat.not_lt.2 (Nat.le_trans (Nat.le_add_left _ _) fits) no
  · have kept := fit (Nat.le_trans (Nat.le_add_right _ _) fits)
    have found := candidate.2 ⟨by rw [kept, firstWaiting_congr states]; exact first, session, open_, idle, by
      rw [kept, sum]
      exact fits⟩
    rw [finish_switches found]
    refine ⟨?_, rfl, rfl, by rw [now]⟩
    show ((y.htr.zones.set z _).get z).state = _
    rw [Quad.get_set, if_pos rfl]
  · have kept := fit fits
    rw [finish_passes]
    · exact left
    · intro found
      obtain ⟨first, -, -, -, within⟩ := candidate.1 found
      rw [kept, firstWaiting_congr states] at first
      rw [kept, sum] at within
      rcases other with no | no
      · exact no first
      · exact Nat.not_lt.2 within no

/-- A HEATING zone below its upper threshold heats on, or has left the heater allowance (R71, R76). -/
theorem reading_heats (on : (s0.htr.zones.get z).state = .heating) (cold : d < s0.cfg.tTarget + s0.cfg.hysteresis) :
    let old := s0.htr.zones.get z
    let q := finish true s0 (zoneChanged z old (old.convert s0.cfg (.reading d)) s)
    ((q.htr.zones.get z).state = .heating ∨ (q.htr.zones.get z).state = .waiting) ∧
      (ratedSum Zone.heats s0.htr.zones s0.cfg.ratings ≤ q.dmu.heaterAllow → (q.htr.zones.get z).state = .heating) := by
  intro old q
  obtain ⟨-, -, -, goes_on, -⟩ := nextState_reading was cool
  have heating : (old.convert s0.cfg (.reading d)).state = .heating := goes_on on cold
  obtain ⟨-, -, -, out, warm, -⟩ := reading_zone (z := z) (d := d) base zones
  have not_out : (q.htr.zones.get z).state ≠ .out := fun h => by
    have := out.1 h
    rw [show old.nextState s0.cfg (.reading d) = .heating from heating] at this
    cases this
  have not_warm : (q.htr.zones.get z).state ≠ .warm := fun h => by
    have := warm.1 h
    rw [show old.nextState s0.cfg (.reading d) = .heating from heating] at this
    cases this
  refine ⟨?_, fun fits => ?_⟩
  · cases is : (q.htr.zones.get z).state with
    | out => exact absurd is not_out
    | warm => exact absurd is not_warm
    | heating => exact .inl rfl
    | waiting => exact .inr rfl
  · have eq : q = finish true s0 (zoneSettled z (old.convert s0.cfg (.reading d)) s) := by
      show finish true s0 (zoneChanged z old (old.convert s0.cfg (.reading d)) s) = _
      rw [reading_settled was cool]
    have same : (old.convert s0.cfg (.reading d)).heats = (s.htr.zones.get z).heats := by
      rw [heats_iff.2 heating, zones]
      exact (heats_iff.2 on).symm
    rw [eq] at fits ⊢
    have kept := zoneSettled_fit same (by rw [zones, show s.cfg = s0.cfg by rw [base]]; exact fits)
    have here : (zoneSettled z (old.convert s0.cfg (.reading d)) s).htr.zones.get z = old.convert s0.cfg (.reading d) := by
      rw [kept, Quad.get_set, if_pos rfl]
    rcases finish_zone true s0 (zoneSettled z (old.convert s0.cfg (.reading d)) s) z with still | ⟨-, switched⟩
    · rw [still, here]
      exact heating
    · rw [switched]

end

/-! ## The timers -/

/-- The stagger timer's end, and the switch-on test it brings (R74, R75). -/
theorem event_stagger {t m : Nat} {s : State} (is : (elapse t s).htr.stagger = some m) (passed : m ≤ (elapse t s).now) :
    exec (.staggerTimerExpiry t) s = .next (finish true (elapse t s)
      { elapse t s with htr := { (elapse t s).htr with stagger := none } }) := by
  have ends := (due_iff_passed _ _).2 ⟨m, is, passed⟩
  refine congrArg Host.Outcome.next ?_
  show finish (due _ _) _ (staggerEnds (elapse t s)) = _
  rw [ends, staggerEnds, if_pos ends]

theorem doseLimitReached_due {z : ZoneId} {s : State} (heating : (s.htr.zones.get z).state = .heating)
    (reached : s.cfg.doseLimit * 1000000 ≤ (s.htr.zones.get z).heatTime) :
    doseLimitReached z s = zoneChanged z (s.htr.zones.get z) (s.htr.zones.get z).exhaust s :=
  if_pos (by rw [heats_iff.2 heating, decide_eq_true reached]; rfl)

theorem event_conversion {t : Nat} {z : ZoneId} {c : Conversion} {s y : State} {b : Bool}
    (work : conversionDue z c (elapse t s) = b ∧ conversion z c (elapse t s) = y) :
    exec (.temperatureConversion t z c) s = .next (finish b (elapse t s) y) := by
  refine congrArg Host.Outcome.next ?_
  show finish (conversionDue z c (elapse t s)) _ (conversion z c (elapse t s)) = _
  rw [work.1, work.2]

/-- Settles O54: the idle timer at every event's tail, and the heater's events one by one. -/
theorem heaterEventsTaken : Obligations.HeaterEventsTaken := by
  refine ⟨fun c s q run had none session closed => ?_, fun t m z s => ?_⟩
  · obtain ⟨tests, work, is⟩ := exec_atMoment c
    have run' := is c.moment s
    rw [atMoment_moment, run] at run'
    obtain rfl : q = eventTested c.moment tests work s := Host.Outcome.next.inj run'
    exact finish_starts_idle (by rw [elapse_anyHeating]; exact had) none session closed
  · intro s0 heating fits old followed short turn counted
    refine ⟨fun w is passed first fit => ?_, fun is passed unfit => ?_, fun is passed => ?_, fun on reached => ?_,
      fun d c taken low high => ?_, fun x c taken broken was => ?_, fun x c taken broken was => ?_, fun x none => ?_⟩
    · have fit' := fit
      obtain ⟨session, open_, within⟩ := fit
      have run := event_stagger is passed
      have found : ({ s0.htr with stagger := none } : Htr).candidate (inSession s0) s0.dmu.heaterAllow s0.cfg = some w :=
        candidate_iff.2 ⟨first, decide_eq_true session, open_, rfl, within⟩
      rw [finish_switches (after := { s0 with htr := { s0.htr with stagger := none } }) found] at run
      exact run
    · have run := event_stagger is passed
      have nothing : ({ s0.htr with stagger := none } : Htr).candidate (inSession s0) s0.dmu.heaterAllow s0.cfg = none := by
        refine Option.eq_none_iff_forall_ne_some.2 fun w found => ?_
        obtain ⟨first, session, open_, -, within⟩ := candidate_iff.1 found
        exact unfit w first ⟨of_decide_eq_true session, open_, within⟩
      exact run.trans (congrArg Host.Outcome.next (finish_takes_none nothing rfl))
    · have ends := (due_iff_passed _ _).2 ⟨m, is, passed⟩
      exact congrArg Host.Outcome.next ((event_eq (if_pos ends)).trans (finish_untested (by simp [testDue]) rfl))
    · have run : exec (.doseLimit t z) s = .next (finish false s0 (zoneChanged z old old.exhaust s0)) :=
        congrArg Host.Outcome.next (event_eq (doseLimitReached_due on reached))
      clear_value s0
      obtain ⟨-, still, -⟩ := zoneChanged_zones (z := z) (old := old) (new := old.exhaust) (s0 := s0) (s := s0) rfl rfl false
      have zone := (still rfl).resolve_right fun h => nomatch h.1
      exact ⟨_, run, zone, zoneChanged_followed rfl rfl false,
        zoneChanged_raised rfl rfl false (by rw [show old.state = .heating from on]; decide) rfl rfl⟩
    · have settled := settled_reading low high
      have run : exec (.temperatureConversion t z (.reading d)) s = .next (finish true s0 (zoneChanged z old
          (old.convert s0.cfg (.reading d)) { s0 with htr := { s0.htr with converted := counted c } })) := by
        have run := event_conversion (t := t) (conversion_changes (z := z) (c := .reading d) taken (by rw [settled]; rfl))
        rw [settled] at run
        exact run
      obtain ⟨y, is⟩ : ∃ y : State, y = { s0 with htr := { s0.htr with converted := counted c } } := ⟨_, rfl⟩
      have base : y = { s0 with htr := y.htr } := by rw [is]
      have zones : y.htr.zones = s0.htr.zones := by rw [is]
      have window : y.htr.window = s0.htr.window := by rw [is]
      have stagger : y.htr.stagger = s0.htr.stagger := by rw [is]
      have start : y.htr.cycleStart = some c := by rw [is]; exact taken.1
      have count : y.htr.converted = counted c := by rw [is]
      rw [← is] at run
      clear_value s0
      obtain ⟨-, -, start', converted⟩ := zoneChanged_zones (z := z) (old := old) (new := old.convert s0.cfg (.reading d)) base zones true
      obtain ⟨temp, kept, ended, out, warm, cause, overtemp⟩ := reading_zone (z := z) (d := d) base zones
      have followed' := zoneChanged_followed (z := z) (old := old) (new := old.convert s0.cfg (.reading d)) base zones true
      refine ⟨_, run, followed', converted.trans count, start'.trans start, temp, kept, ended,
        fun was => ⟨out.2 (nextState_out was), cause was⟩, fun was hot => ⟨out.2 (nextState_hot hot), overtemp was hot, ?_⟩,
        fun was cool => ?_⟩
      · exact zoneChanged_raised base zones true was (nextState_hot hot)
          (by rw [causeOf, convert_cause_moved (nextState_hot hot) was]; rfl)
      · obtain ⟨not_out, is_warm, -⟩ := nextState_reading was cool
        have asks := fun still cold => reading_asks (z := z) (d := d) base zones was cool still cold
        rw [window, stagger] at asks
        exact ⟨warm.trans is_warm, mt out.1 not_out, fun cold => (asks cold.1 cold.2).1, fun cold => (asks cold.1 cold.2).2.1,
          fun cold => (asks cold.1 cold.2).2.2, fun on cold => reading_heats base zones was cool on cold⟩
    · have tells : conversionTells (settledConversion x) old = true := by
        rw [settled_broken broken]
        rcases broken with rfl | rfl <;> exact decide_eq_true was
      have run : exec (.temperatureConversion t z x) s = .next (finish true s0 (zoneChanged z old (old.convert s0.cfg x)
          { s0 with htr := { s0.htr with converted := counted c } })) := by
        have run := event_conversion (t := t) (conversion_changes (z := z) (c := x) taken tells)
        rw [settled_broken broken] at run
        exact run
      clear_value s0
      intro cause
      obtain ⟨-, still, -, converted⟩ := zoneChanged_zones (z := z) (old := old) (new := old.convert s0.cfg x) (s0 := s0)
        (s := { s0 with htr := { s0.htr with converted := counted c } }) rfl rfl true
      have followed' := zoneChanged_followed (z := z) (old := old) (new := old.convert s0.cfg x) (s0 := s0)
        (s := { s0 with htr := { s0.htr with converted := counted c } }) rfl rfl true
      have raised := zoneChanged_raised (cause := cause) (z := z) (old := old) (new := old.convert s0.cfg x) (s0 := s0)
        (s := { s0 with htr := { s0.htr with converted := counted c } }) rfl rfl true was (nextState_broken broken)
        (by rw [convert_broken broken was]; rfl)
      have moved := convert_broken (cfg := s0.cfg) broken was
      have zone := (still (heats_false (by rw [convert_state, nextState_broken broken]; decide))).resolve_right fun h => by
        have waiting := h.1
        rw [convert_state, nextState_broken broken] at waiting
        cases waiting
      exact ⟨_, run, followed', converted, zone.trans moved, raised⟩
    · have run := event_conversion (t := t) (conversion_silent (z := z) (c := x) taken
        (by rw [settled_broken broken]; rcases broken with rfl | rfl <;> exact decide_eq_false (not_not.2 was)))
      exact run.trans (congrArg Host.Outcome.next (finish_untested (by simp [testDue]) rfl))
    · have converts := no_turn_converts none
      have due : conversionDue z x s0 = false := by rw [conversionDue, converts]; rfl
      have run := event_conversion (t := t) ⟨due, if_neg (by rw [converts]; decide)⟩
      exact run.trans (congrArg Host.Outcome.next (finish_untested (by simp [testDue]) rfl))

end Sys2Proof.Proofs
end

section
/-! PROOF. A meter sample: the commands that bring it, its judging of the bus, its supervision of the draw, and the slot. -/

namespace Sys2Proof.Proofs

open Sys2Proof.Machine

/-! ## The five commands of a sample -/

theorem exec_sample {c : Nat → MeterInputs → Instr} (mem : c ∈ sampleCommands) (t : Nat) (m : MeterInputs) (s : State) :
    exec (c t m) s = .next (finish false (elapse t s) (sampleCompletes m (elapse t s))) := by
  simp only [sampleCommands, List.mem_cons, List.not_mem_nil, or_false] at mem
  rcases mem with rfl | rfl | rfl | rfl | rfl <;> rfl

theorem sampleCompletes_due {p : Nat} {s : State} (m : MeterInputs) (on : s.stc.op ≠ .start) (runs : s.mtr.periodEnd = some p)
    (passed : p ≤ s.now) : sampleCompletes m s = sampleWork (sampleOf s.trm.inUse s.mtr.offset m) s :=
  if_pos ⟨on, by rw [runs]; exact decide_eq_true passed⟩

/-- A sample whose period has run its length does its work (R117). -/
theorem exec_sample_due {c : Nat → MeterInputs → Instr} (mem : c ∈ sampleCommands) (t : Nat) {p : Nat} (m : MeterInputs) {s : State}
    (on : (elapse t s).stc.op ≠ .start) (runs : (elapse t s).mtr.periodEnd = some p) (passed : p ≤ (elapse t s).now) :
    exec (c t m) s = .next (finish false (elapse t s)
      (sampleWork (sampleOf (elapse t s).trm.inUse (elapse t s).mtr.offset m) (elapse t s))) := by
  rw [exec_sample mem, sampleCompletes_due m on runs passed]

/-! ## The presence (R124) -/

/-- The sample tells of a change of the presence. -/
abbrev Rises (threshold v : Nat) (r : Mtr) : Prop :=
  r.presence = .absent ∧ threshold ≤ v ∨ r.presence = .present ∧ v < threshold

/-- The meter with the presence judged by the run of like samples (R124). -/
abbrev presenceTold (threshold v : Nat) (r : Mtr) : Mtr := { r with
  presence := if Rises threshold v r ∧ 3 ≤ r.run then (if r.presence = .absent then .present else .absent) else r.presence
  run := if Rises threshold v r ∧ 3 ≤ r.run then 0 else if Rises threshold v r then r.run + 1 else 0 }

theorem judgePresence_eq (threshold v : Nat) (r : Mtr) : r.judgePresence threshold v = presenceTold threshold v r := by
  obtain ⟨latest, offset, cal, presence, run, interval, heat, charge, last, overtaken, lifetime⟩ := r
  cases presence <;> by_cases low : v < threshold <;> by_cases long : 3 ≤ run <;>
    simp [Mtr.judgePresence, presenceTold, Rises, low, long, Nat.not_le.mpr, Nat.not_lt.mp]

theorem reportsPresent_iff {threshold v : Nat} {r : Mtr} : r.reportsPresent threshold v = true ↔
    r.presence = .absent ∧ threshold ≤ v ∧ 3 ≤ r.run := by
  simp [Mtr.reportsPresent]

theorem reportsLost_iff {threshold v : Nat} {r : Mtr} : r.reportsLost threshold v = true ↔
    r.presence = .present ∧ v < threshold ∧ 3 ≤ r.run := by
  simp [Mtr.reportsLost]

theorem busPresent_off {s : State} (h : s.stc.op ≠ .ready) : busPresent s = s := by
  unfold busPresent
  split
  · next op => exact absurd op h
  · rfl

theorem busLost_off {s : State} (h : s.stc.op.takesFrames = false) : busLost s = s := by
  unfold busLost
  split
  case h_4 => rfl
  all_goals next op => rw [op] at h; exact nomatch h

/-- The sample tells of a change of the presence that the operating state acts on (R124, R159, R162). -/
abbrev Acted (v : Nat) (s : State) : Prop :=
  (Rises s.cfg.busThreshold v s.mtr ∧ 3 ≤ s.mtr.run) ∧
    (s.mtr.presence = .absent ∧ s.stc.op = .ready ∨ s.mtr.presence = .present ∧ s.stc.op.takesFrames = true)

/-- A report that no state acts on leaves the presence judged, and nothing else (R124). -/
theorem judgeBus_unacted {v : Nat} {s : State} (h : ¬ Acted v s) :
    judgeBus v s = { s with mtr := presenceTold s.cfg.busThreshold v s.mtr } := by
  rw [judgeBus, ← judgePresence_eq]
  split
  · next reports =>
    obtain ⟨absent, high, long⟩ := reportsPresent_iff.mp reports
    exact busPresent_off fun op => h ⟨⟨.inl ⟨absent, high⟩, long⟩, .inl ⟨absent, op⟩⟩
  · split
    · next reports =>
      obtain ⟨present, low, long⟩ := reportsLost_iff.mp reports
      exact busLost_off (Bool.eq_false_iff.mpr fun takes => h ⟨⟨.inr ⟨present, low⟩, long⟩, .inr ⟨present, takes⟩⟩)
    · rfl

/-! ## The draw supervised (R46, R48 to R50) -/

/-- The fourth sample above the bound that neither the exclusion nor the wait shuts out. -/
theorem overdraws_iff {slot : Bool} {corrected bound : Int} {u : Shu} : u.overdraws slot corrected bound = true ↔
    slot = false ∧ u.exclusion = 0 ∧ bound < corrected ∧ u.overWait = false ∧ 3 ≤ u.overCount := by
  simp only [Shu.overdraws, Shu.excludes, Bool.and_eq_true, Bool.not_eq_true', Bool.or_eq_false_iff, decide_eq_false_iff_not,
    decide_eq_true_eq, Nat.not_lt, Nat.le_zero, and_assoc, Nat.reduceLeDiff]

/-- The sample's energy added, and the Share Unit ramped and supervised, before a fault is raised (R118 steps 1 and 2). -/
def sampled (slot : Bool) (x : MeterSample) (s : State) : State :=
  { s with
    mtr := { s.mtr.accumulate slot x with latest := some x }
    shu := (s.shu.ramp s.dmu.chargerAllow).supervise slot x.corrected (overdrawBound s.shu.limit s.cfg.tolerance) }

theorem creditSample_outside {slot : Bool} {x : MeterSample} {s : State} (h : s.stc.op ≠ .session) : creditSample slot x s = s := by
  simp [creditSample, inSession, h]

theorem accumulate_latest (slot : Bool) (x : MeterSample) (r : Mtr) (l : Option MeterSample) :
    ({ r with latest := l } : Mtr).accumulate slot x = { r.accumulate slot x with latest := l } := by
  cases slot <;> rfl

/-- In SESSION a sample that raises no OVERDRAW is added and supervised. -/
theorem creditSample_quiet {slot : Bool} {x : MeterSample} {s : State} (op : s.stc.op = .session)
    (h : s.shu.overdraws slot x.corrected (overdrawBound s.shu.limit s.cfg.tolerance) = false) :
    creditSample slot x { s with mtr := { s.mtr with latest := some x } } = sampled slot x s := by
  rw [creditSample, if_pos (by simp [inSession, op]), accumulate_latest, rampAndSupervise]
  exact if_neg (by simp [h])

theorem creditSample_overdraws {slot : Bool} {x : MeterSample} {s : State} (op : s.stc.op = .session)
    (h : s.shu.overdraws slot x.corrected (overdrawBound s.shu.limit s.cfg.tolerance) = true) :
    creditSample slot x { s with mtr := { s.mtr with latest := some x } } = overdrawRaised x.corrected (sampled slot x s) := by
  rw [creditSample, if_pos (by simp [inSession, op]), accumulate_latest, rampAndSupervise]
  exact if_pos h

theorem intervalTest_outside {s : State} (h : s.stc.op ≠ .session) : intervalTest s = s := by
  simp [intervalTest, inSession, h]

theorem intervalTest_short {s : State} (h : s.mtr.interval.count < 240) : intervalTest s = s := by
  simp [intervalTest, Nat.not_le.mpr h, Config.intervalSamples]

theorem intervalTest_full {s : State} (op : s.stc.op = .session) (h : 240 ≤ s.mtr.interval.count) :
    intervalTest s = intervalEnds s := by
  simp [intervalTest, inSession, op, h, Config.intervalSamples]

theorem accumulate_count (slot : Bool) (x : MeterSample) (r : Mtr) :
    (r.accumulate slot x).interval.count = r.interval.count + 1 := by
  cases slot <;> rfl

/-- A sample sums, holds and counts; it leaves the slot, the presence and the lifetime counter (R118 step 1). -/
theorem accumulate_kept (slot : Bool) (x : MeterSample) (r : Mtr) : let q := r.accumulate slot x
    q.offset = r.offset ∧ q.cal = r.cal ∧ q.presence = r.presence ∧ q.run = r.run ∧ q.lifetime = r.lifetime ∧
      q.periodEnd = r.periodEnd ∧ q.overtaken = r.overtaken := by
  cases slot <;> exact ⟨rfl, rfl, rfl, rfl, rfl, rfl, rfl⟩

/-- The supervision moves the counts and the wait alone (R48, R49). -/
theorem supervise_figures (slot : Bool) (corrected bound : Int) (u : Shu) : let v := u.supervise slot corrected bound
    v.limit = u.limit ∧ v.intent = u.intent ∧ v.record = u.record ∧ v.peak = u.peak ∧ v.setpoint = u.setpoint := by
  simp only [Shu.supervise]
  repeat' split
  all_goals exact ⟨rfl, rfl, rfl, rfl, rfl⟩

/-- The ramp moves the setpoint (R46). -/
theorem supervised_figures (slot : Bool) (corrected bound : Int) (allow : Nat) (u : Shu) :
    let v := (u.ramp allow).supervise slot corrected bound
    v.limit = u.limit ∧ v.intent = u.intent ∧ v.record = u.record ∧ v.peak = u.peak ∧
      v.setpoint = (if u.setpoint < allow then min (u.setpoint + 50) allow else u.setpoint) :=
  supervise_figures slot corrected bound (u.ramp allow)

/-! ## The slot's end (R123) -/

/-- The sample, the offset, the held units and the presence stand, whatever else of the meter moves. -/
structure SampleKept (r q : Mtr) : Prop where
  latest : q.latest = r.latest
  offset : q.offset = r.offset
  heldHeat : q.heldHeat = r.heldHeat
  heldCharge : q.heldCharge = r.heldCharge
  presence : q.presence = r.presence
  run : q.run = r.run

theorem SampleKept.refl (r : Mtr) : SampleKept r r := ⟨rfl, rfl, rfl, rfl, rfl, rfl⟩

theorem partialInterval_sample (s : State) : SampleKept s.mtr (partialInterval s).mtr := by
  unfold partialInterval
  split <;> exact ⟨rfl, rfl, rfl, rfl, rfl, rfl⟩

theorem abandonSlot_mtr (s : State) : (abandonSlot s).mtr = { s.mtr with cal := .idle } := by
  unfold abandonSlot
  split
  · next idle => rw [← idle]
  · simp

theorem abandonSlot_idle {s : State} (idle : s.mtr.cal = .idle) : abandonSlot s = s := if_pos idle

theorem abandonSlot_vlk_idle (s : State) (idle : s.mtr.cal = .idle) : (abandonSlot s).vlk = s.vlk := by
  rw [abandonSlot_idle idle]

/-- A session's close keeps the meter's sample, credits it at most (R127, R138). -/
theorem depart_sample (reason : CloseReason) (code : Option FaultCode) {dest : OpState} (s : State) (h : dest ≠ .session) :
    SampleKept s.mtr (depart reason code dest s).mtr ∧ (depart reason code dest s).mtr.cal = .idle := by
  obtain ⟨-, -, -, mtr, -⟩ := depart_spec reason code dest s h
  obtain ⟨latest, offset, heat, charge, presence, run⟩ := partialInterval_sample s
  rw [mtr, closeSession_mtr]
  exact ⟨⟨latest, offset, heat, charge, presence, run⟩, rfl⟩

/-- With no slot in hand a departure leaves the request in progress and the result slot (R122). -/
theorem depart_slot (reason : CloseReason) (code : Option FaultCode) {dest : OpState} {s : State} (h : dest ≠ .session)
    (idle : s.mtr.cal = .idle) : (depart reason code dest s).vlk.inProgress = s.vlk.inProgress ∧
      (depart reason code dest s).vlk.slot = s.vlk.slot := by
  obtain ⟨-, -, -, -, -, -, -, -, -, -, vlk, -⟩ := depart_spec reason code dest s h
  have same : (partialInterval s).mtr.cal = .idle := by
    unfold partialInterval
    split <;> exact idle
  have link : (closeSession reason code s).vlk = (post .sessionClosed (partialInterval s)).vlk :=
    abandonSlot_vlk_idle (post .sessionClosed { partialInterval s with
      ses := (partialInterval s).ses.close (clock (partialInterval s)) (partialInterval s).mtr.lifetime (partialInterval s).shu.peak
        reason code
      mtr := { (partialInterval s).mtr with interval := Interval.none } }) same
  rw [vlk, link, post]
  simp

theorem halt_sample (c : FaultCode) (s : State) : SampleKept s.mtr (halt c s).mtr := by
  unfold halt
  split
  · rw [enterHalted_mtr]
    exact (depart_sample .fault (some c) (dest := .halted) s nofun).1
  · rw [enterHalted_mtr, moveTo_mtr, abandonSlot_mtr]
    exact ⟨rfl, rfl, rfl, rfl, rfl, rfl⟩
  · rw [enterHalted_mtr, moveTo_mtr]
    exact .refl _
  · exact .refl _

theorem moveTo_slot (op : OpState) (s : State) :
    (moveTo op s).vlk.inProgress = s.vlk.inProgress ∧ (moveTo op s).vlk.slot = s.vlk.slot := by
  rw [moveTo, resplit_vlk, regrant_vlk]
  exact ⟨rfl, rfl⟩

/-- With no slot in hand the halt leaves the slot, the request in progress and the result slot as they are. -/
theorem halt_slot (c : FaultCode) {s : State} (idle : s.mtr.cal = .idle) : (halt c s).mtr.cal = .idle ∧
    (halt c s).vlk.inProgress = s.vlk.inProgress ∧ (halt c s).vlk.slot = s.vlk.slot := by
  unfold halt
  split
  · rw [enterHalted_mtr, enterHalted_vlk]
    exact ⟨(depart_sample .fault (some c) (dest := .halted) s nofun).2, depart_slot .fault (some c) (dest := .halted) nofun idle⟩
  · rw [enterHalted_mtr, enterHalted_vlk, abandonSlot_idle idle, moveTo_mtr]
    exact ⟨idle, moveTo_slot _ _⟩
  · rw [enterHalted_mtr, enterHalted_vlk, moveTo_mtr]
    exact ⟨idle, moveTo_slot _ _⟩
  · exact ⟨idle, rfl, rfl⟩

/-- A fault leaves the meter's sample, offset, held units and presence as they are, session's end or not. -/
theorem raise_sample (c : FaultCode) (d : FaultDetail) (s : State) : SampleKept s.mtr (raise c d s).mtr := by
  unfold raise
  simp only []
  split
  · exact halt_sample c (recordFault c d s)
  · exact .refl _

theorem raise_slot (c : FaultCode) (d : FaultDetail) {s : State} (idle : s.mtr.cal = .idle) : (raise c d s).mtr.cal = .idle ∧
    (raise c d s).vlk.inProgress = s.vlk.inProgress ∧ (raise c d s).vlk.slot = s.vlk.slot := by
  unfold raise
  simp only []
  split
  · exact halt_slot c (s := recordFault c d s) idle
  · exact ⟨idle, rfl, rfl⟩

/-- The record with which CALIBRATE METER ends, carrying the reading, the offset and the acceptance (R123, R172). -/
abbrev calibrated (tag : Byte) (reading offset : Int) : TermRecord :=
  { tag := tag, code := 0x0E#8, result := .done, clampMask := 0
    data := wordInt reading ++ wordInt offset ++ wordMark (decide (-50 ≤ reading ∧ reading ≤ 50)) }

/-- The slot judged, before METER_CAL is raised for a reading refused (R123). -/
def slotEnded (reading : Int) (s : State) : State :=
  endCalibrate .done (wordInt reading ++ wordInt (s.mtr.judgeSlot reading).offset ++ wordMark (slotAccepted reading))
    { s with mtr := s.mtr.judgeSlot reading }

theorem judgeSlot_eq (reading : Int) (s : State) : judgeSlot reading s =
    if slotAccepted reading then slotEnded reading s else raise .meterCal (.number reading) (slotEnded reading s) := rfl

theorem slotAccepted_iff (reading : Int) : slotAccepted reading = true ↔ -50 ≤ reading ∧ reading ≤ 50 := by
  rw [slotAccepted, decide_eq_true_eq]

theorem judgeSlot_fits {reading : Int} (s : State) (fits : -50 ≤ reading ∧ reading ≤ 50) :
    judgeSlot reading s = slotEnded reading s := by
  rw [judgeSlot_eq, if_pos ((slotAccepted_iff reading).mpr fits)]

theorem judgeSlot_refused {reading : Int} (s : State) (refused : ¬ (-50 ≤ reading ∧ reading ≤ 50)) :
    judgeSlot reading s = raise .meterCal (.number reading) (slotEnded reading s) := by
  rw [judgeSlot_eq, if_neg (fun h => refused ((slotAccepted_iff reading).mp h))]

theorem slotEnded_mtr (reading : Int) (s : State) : (slotEnded reading s).mtr =
    { s.mtr with offset := if -50 ≤ reading ∧ reading ≤ 50 then reading else s.mtr.offset, cal := .idle } := by
  rw [slotEnded, endCalibrate_mtr, Mtr.judgeSlot]
  simp only [slotAccepted_iff]

theorem endCalibrate_answers (res : Result) (data : List Byte) (s : State) : (endCalibrate res data s).vlk.inProgress = none ∧
    ∀ tag, s.vlk.inProgress = some tag → (endCalibrate res data s).vlk.slot =
      some { tag := tag, code := 0x0E#8, result := res, clampMask := 0, data := data } := by
  unfold endCalibrate
  split
  · next none => exact ⟨none, fun tag some => by rw [none] at some; exact nomatch some⟩
  · next t found =>
    refine ⟨rfl, fun tag some => ?_⟩
    obtain rfl : t = tag := Option.some.inj (found.symm.trans some)
    rfl

/-- CALIBRATE METER has ended, with the record of this reading and this offset (R123, R174). -/
structure SlotJudged (reading : Int) (s q : State) : Prop where
  cal : q.mtr.cal = .idle
  inProgress : q.vlk.inProgress = none
  offset : q.mtr.offset = if -50 ≤ reading ∧ reading ≤ 50 then reading else s.mtr.offset
  slot : ∀ tag, s.vlk.inProgress = some tag → q.vlk.slot = some (calibrated tag reading q.mtr.offset)
  latest : q.mtr.latest = s.mtr.latest
  heldHeat : q.mtr.heldHeat = s.mtr.heldHeat
  heldCharge : q.mtr.heldCharge = s.mtr.heldCharge
  presence : q.mtr.presence = s.mtr.presence
  run : q.mtr.run = s.mtr.run

theorem slotEnded_judged (reading : Int) (s : State) : SlotJudged reading s (slotEnded reading s) := by
  have mtr := slotEnded_mtr reading s
  obtain ⟨inProgress, slot⟩ := endCalibrate_answers .done
    (wordInt reading ++ wordInt (s.mtr.judgeSlot reading).offset ++ wordMark (slotAccepted reading))
    { s with mtr := s.mtr.judgeSlot reading }
  refine ⟨(congrArg Mtr.cal mtr :), inProgress, (congrArg Mtr.offset mtr :), fun tag is => ?_, (congrArg Mtr.latest mtr :),
    (congrArg Mtr.heldHeat mtr :), (congrArg Mtr.heldCharge mtr :), (congrArg Mtr.presence mtr :), (congrArg Mtr.run mtr :)⟩
  have offset : (slotEnded reading s).mtr.offset = (s.mtr.judgeSlot reading).offset := by
    rw [slotEnded, endCalibrate_mtr]
  rw [offset]
  exact slot tag is

/-- The slot judged, whether METER_CAL halts the station, is recorded alone, or is not raised. -/
theorem judgeSlot_judged (reading : Int) (s : State) : SlotJudged reading s (judgeSlot reading s) := by
  have ended := slotEnded_judged reading s
  by_cases fits : -50 ≤ reading ∧ reading ≤ 50
  · rw [judgeSlot_fits s fits]
    exact ended
  · rw [judgeSlot_refused s fits]
    obtain ⟨latest, offset, heat, charge, presence, run⟩ := raise_sample .meterCal (.number reading) (slotEnded reading s)
    obtain ⟨cal, inProgress, slot⟩ := raise_slot .meterCal (.number reading) ended.cal
    refine ⟨cal, inProgress.trans ended.inProgress, offset.trans ended.offset, fun tag is => ?_, latest.trans ended.latest,
      heat.trans ended.heldHeat, charge.trans ended.heldCharge, presence.trans ended.presence, run.trans ended.run⟩
    rw [slot, offset]
    exact ended.slot tag is

end Sys2Proof.Proofs

end

section
/-! PROOF. A meter sample that ends nothing but, at most, the slot (R117 to R124). -/

namespace Sys2Proof.Proofs

open Sys2Proof.Machine

/-! ## The order of a sample's work (R118) -/

/-- The next sample period begins (R117). -/
def periodBegins (s : State) : State := { s with mtr := s.mtr.nextPeriod s.now }

/-- The state with the presence judged by a sample of `v` volts (R124). -/
def heardBus (v : Nat) (s : State) : State := { s with mtr := presenceTold s.cfg.busThreshold v s.mtr }

/-- With the steps before the bus done, as `y`, and no report acted on, the slot and the next period remain. -/
theorem sampleWork_unacted {x : MeterSample} {s y : State}
    (before : intervalTest (creditSample (decide (s.mtr.cal = .shorted)) x { s with mtr := { s.mtr with latest := some x } }) = y)
    (unacted : ¬ Acted x.voltage y) :
    sampleWork x s = periodBegins (slotTest (decide (s.mtr.cal = .shorted)) x.total (heardBus x.voltage y)) := by
  rw [sampleWork, before, judgeBus_unacted unacted]
  rfl

theorem slotTest_other {reading : Int} {s y : State} (h : s.mtr.cal ≠ .shorted) :
    slotTest (decide (s.mtr.cal = .shorted)) reading y = y := by
  rw [decide_eq_false h]
  rfl

theorem slotTest_slot {reading : Int} {s y : State} (h : s.mtr.cal = .shorted) (still : y.mtr.cal = .shorted) :
    slotTest (decide (s.mtr.cal = .shorted)) reading y = judgeSlot reading y := by
  rw [slotTest, h, still]
  rfl

theorem before_outside {slot : Bool} {x : MeterSample} {s : State} (out : s.stc.op ≠ .session) :
    intervalTest (creditSample slot x { s with mtr := { s.mtr with latest := some x } }) =
      { s with mtr := { s.mtr with latest := some x } } := by
  have credit := creditSample_outside (slot := slot) (x := x) (s := { s with mtr := { s.mtr with latest := some x } }) out
  exact (congrArg intervalTest credit).trans (intervalTest_outside out)

/-- In SESSION a sample before the 240th that overdraws nothing is added, and no more. -/
theorem before_short {slot : Bool} {x : MeterSample} {s : State} (op : s.stc.op = .session) (short : s.mtr.interval.count < 239)
    (quiet : s.shu.overdraws slot x.corrected (overdrawBound s.shu.limit s.cfg.tolerance) = false) :
    intervalTest (creditSample slot x { s with mtr := { s.mtr with latest := some x } }) = sampled slot x s := by
  rw [creditSample_quiet op quiet]
  refine intervalTest_short ?_
  show (s.mtr.accumulate slot x).interval.count < 240
  rw [accumulate_count]
  exact Nat.add_lt_add_right short 1

/-- How one sample outside the slot counts (R48, R49). -/
theorem supervise_counts (corrected bound : Int) (u : Shu) : let v := u.supervise false corrected bound
    v.exclusion = u.exclusion - 1 ∧
      (0 < u.exclusion → v.overCount = u.overCount ∧ v.overWait = u.overWait) ∧
      (u.exclusion = 0 → corrected ≤ bound → v.overCount = 0 ∧ v.overWait = false) ∧
      (u.exclusion = 0 → bound < corrected → v.overWait = u.overWait ∧
        v.overCount = (if u.overWait then u.overCount else u.overCount + 1)) := by
  simp only [Shu.supervise, Shu.excludes, Bool.false_or, decide_eq_true_eq]
  split
  · next excluded => exact ⟨rfl, fun _ => ⟨rfl, rfl⟩, fun z => absurd excluded (by omega), fun z => absurd excluded (by omega)⟩
  · next counted =>
    have zero : u.exclusion = u.exclusion - 1 := by omega
    split
    · next within => exact ⟨zero, fun some => absurd some counted, fun _ _ => ⟨rfl, rfl⟩, fun _ above => absurd within (by omega)⟩
    · next above =>
      split
      · next waits => exact ⟨zero, fun some => absurd some counted, fun _ within => absurd within above,
          fun _ _ => ⟨rfl, rfl⟩⟩
      · next counts => exact ⟨zero, fun some => absurd some counted, fun _ within => absurd within above,
          fun _ _ => ⟨rfl, rfl⟩⟩

/-! ## What the slot's end leaves unchanged (R123) -/

/-- The slot's end moves the meter's slot, the link and the faults alone, where it does not halt. -/
structure SlotStays (reading : Int) (s q : State) : Prop where
  rest : RestKept { s with mtr := q.mtr } q
  mtr : q.mtr = { s.mtr with offset := if -50 ≤ reading ∧ reading ≤ 50 then reading else s.mtr.offset, cal := .idle }
  shu : q.shu = s.shu
  dmu : q.dmu = s.dmu
  htr : q.htr = s.htr
  dli : q.dli = s.dli
  ptb : q.ptb = s.ptb

theorem slotEnded_stays (reading : Int) (s : State) : SlotStays reading s (slotEnded reading s) := by
  have mtr := slotEnded_mtr reading s
  unfold slotEnded at *
  exact ⟨by simp [RestKept], mtr, by simp, by simp, by simp, by simp, by simp⟩

theorem slotEnded_flt (reading : Int) (s : State) : (slotEnded reading s).flt = s.flt := by simp [slotEnded]

theorem slotEnded_clock (reading : Int) (s : State) : clock (slotEnded reading s) = clock s := by
  unfold clock slotEnded
  rw [endCalibrate_stc]

/-- A slot judged does not halt where the reading fits, METER_CAL is no stop fault, or the station is off the line. -/
theorem judgeSlot_stays {reading : Int} {s : State}
    (h : (-50 ≤ reading ∧ reading ≤ 50) ∨ s.cfg.policies.meterCal = false ∨ s.stc.op.takesFrames = false) :
    SlotStays reading s (judgeSlot reading s) := by
  have stays := slotEnded_stays reading s
  by_cases fits : -50 ≤ reading ∧ reading ≤ 50
  · rw [judgeSlot_fits s fits]
    exact stays
  · obtain ⟨now, pending, cfg, -, ses, stc, trc, trm⟩ := stays.rest
    have recorded : judgeSlot reading s = recordFault .meterCal (.number reading) (slotEnded reading s) := by
      rw [judgeSlot_refused s fits]
      rcases h with h | h | h
      · exact absurd h fits
      · exact raise_continue _ (by rw [cfg]; exact h)
      · unfold raise
        simp only []
        split
        · exact halt_off (by rw [recordFault_stc, stc]; exact h)
        · rfl
    rw [recorded]
    exact ⟨⟨now, pending, cfg, rfl, ses, stc, trc, trm⟩, stays.mtr, stays.shu, stays.dmu, stays.htr, stays.dli, stays.ptb⟩

/-- METER_CAL tells of a reading refused, and of no other (R123). -/
theorem judgeSlot_flt (reading : Int) (s : State) :
    ((-50 ≤ reading ∧ reading ≤ 50) → (judgeSlot reading s).flt = s.flt) ∧
      (¬ (-50 ≤ reading ∧ reading ≤ 50) → FaultRaised .meterCal (.number reading) s (judgeSlot reading s)) := by
  refine ⟨fun fits => ?_, fun refused => ?_⟩
  · rw [judgeSlot_fits s fits, slotEnded_flt]
  · rw [judgeSlot_refused s refused]
    have stc : (slotEnded reading s).stc = s.stc := (slotEnded_stays reading s).rest.2.2.2.2.2.1
    exact faultRaised_congr (slotEnded_clock reading s).symm (by rw [stc]) (slotEnded_flt reading s).symm (faultRaised_raise _ _ _)

/-- SESSION left: the contactor open, nothing drawn or intended, no interval and no record open (R157, R161). -/
structure Departed (dest : OpState) (q : State) : Prop where
  op : q.stc.op = dest
  contactor : q.stc.contactor = false
  limit : q.shu.limit = 0
  intent : q.shu.intent = 0
  enable : q.shu.enable = false
  interval : q.mtr.interval = Interval.none
  record : q.ses.openRecord = none

theorem close_openRecord (now lifetime peak : Nat) (reason : CloseReason) (code : Option FaultCode) (r : Ses) :
    (r.close now lifetime peak reason code).openRecord = none := by
  unfold Ses.close
  split
  · next none => exact none
  · rfl

theorem depart_departed (reason : CloseReason) (code : Option FaultCode) {dest : OpState} (s : State) (out : dest ≠ .session) :
    Departed dest (depart reason code dest s) := by
  obtain ⟨stc, -, ses, mtr, limit, intent, -, enable, -⟩ := depart_spec reason code dest s out
  rw [closeSession_mtr] at mtr
  rw [closeSession_ses] at ses
  exact ⟨(congrArg Stc.op stc :), (congrArg Stc.contactor stc :), limit, intent, enable, (congrArg Mtr.interval mtr :),
    by rw [ses, close_openRecord]⟩

/-- The record `o` closed with this reason in the departure, the interval in hand credited (R127, R138). -/
structure SessionLeft (reason : CloseReason) (code : Option FaultCode) (dest : OpState) (o : OpenRecord) (s q : State) : Prop
    extends Departed dest q where
  lifetime : q.mtr.lifetime = s.mtr.lifetime + (if s.mtr.interval.count = 0 then 0 else creditTotal s.mtr.interval (some o))
  ses : q.ses = { s.ses with
    openRecord := none
    snapshot := none
    log := s.ses.log ++ [closeRecord { closingRecord s.mtr.interval o with peak := s.shu.peak } (clock s) q.mtr.lifetime reason
      code false] }

theorem depart_left (reason : CloseReason) (code : Option FaultCode) {dest : OpState} {o : OpenRecord} {s : State}
    (out : dest ≠ .session) (record : s.ses.openRecord = some o) :
    SessionLeft reason code dest o s (depart reason code dest s) := by
  obtain ⟨-, -, ses, mtr, -⟩ := depart_spec reason code dest s out
  have lifetime := (partialInterval_record record).2
  rw [← closeSession_lifetime reason code, ← mtr] at lifetime
  rw [closeSession_record reason code record, ← mtr] at ses
  exact ⟨depart_departed reason code s out, lifetime, ses⟩

/-- A stop-class fault in SESSION departs to HALTED (R163). -/
theorem raise_departs {c : FaultCode} (d : FaultDetail) {s : State} (stop : isStop s.cfg.policies c = true)
    (op : s.stc.op = .session) :
    raise c d s = enterHalted (depart .fault (some c) .halted (recordFault c d s)) := by
  rw [raise_stop d stop]
  exact halt_session c (s := recordFault c d s) op

theorem raise_departed {c : FaultCode} (d : FaultDetail) {s : State} (stop : isStop s.cfg.policies c = true)
    (op : s.stc.op = .session) : Departed .halted (raise c d s) := by
  obtain ⟨halted, contactor, limit, intent, enable, interval, record⟩ :=
    depart_departed .fault (some c) (dest := .halted) (recordFault c d s) nofun
  rw [raise_departs d stop op]
  exact ⟨by rw [enterHalted_stc, halted], by rw [enterHalted_stc, contactor], by rw [enterHalted_shu, limit],
    by rw [enterHalted_shu, intent], by rw [enterHalted_shu, enable], by rw [enterHalted_mtr, interval],
    by rw [enterHalted_ses, record]⟩

theorem raise_closes {c : FaultCode} (d : FaultDetail) {o : OpenRecord} {s : State} (stop : isStop s.cfg.policies c = true)
    (op : s.stc.op = .session) (record : s.ses.openRecord = some o) :
    SessionLeft .fault (some c) .halted o s (raise c d s) := by
  have left := depart_left .fault (some c) (dest := .halted) (s := recordFault c d s) nofun record
  have departed := raise_departed d stop op
  have mtr := enterHalted_mtr (s := depart .fault (some c) .halted (recordFault c d s))
  rw [raise_departs d stop op] at departed ⊢
  refine ⟨departed, ?_, ?_⟩
  · rw [mtr]
    exact left.lifetime
  · rw [enterHalted_ses, mtr]
    exact left.ses

theorem judgeSlot_now (reading : Int) (s : State) : (judgeSlot reading s).now = s.now := by
  rw [judgeSlot_eq]
  split <;> simp [slotEnded]

/-- The slot's end leaves the state IDLE for the next period (R123). -/
theorem periodBegins_idle {s : State} (idle : s.mtr.cal = .idle) : (periodBegins s).mtr.cal = .idle := by
  show (if s.mtr.cal = .pending then CalState.shorted else s.mtr.cal) = .idle
  rw [idle]
  rfl

theorem judgeSlot_departed {reading : Int} {s : State} (refused : ¬ (-50 ≤ reading ∧ reading ≤ 50))
    (stop : s.cfg.policies.meterCal = true) (op : s.stc.op = .session) : Departed .halted (judgeSlot reading s) := by
  obtain ⟨now, pending, cfg, -, ses, stc, trc, trm⟩ := (slotEnded_stays reading s).rest
  rw [judgeSlot_refused s refused]
  exact raise_departed _ (by rw [cfg]; exact stop) (by rw [stc]; exact op)

/-- A reading refused under the stop policy closes an open session and halts (R123, R163). -/
theorem judgeSlot_closes {reading : Int} {o : OpenRecord} {s : State} (refused : ¬ (-50 ≤ reading ∧ reading ≤ 50))
    (stop : s.cfg.policies.meterCal = true) (op : s.stc.op = .session) (record : s.ses.openRecord = some o) :
    SessionLeft .fault (some .meterCal) .halted o (slotEnded reading s) (judgeSlot reading s) := by
  obtain ⟨now, pending, cfg, -, ses, stc, trc, trm⟩ := (slotEnded_stays reading s).rest
  rw [judgeSlot_refused s refused]
  exact raise_closes _ (by rw [cfg]; exact stop) (by rw [stc]; exact op) (by rw [ses]; exact record)

/-- A reading refused under the stop policy halts a station on the line (R123, R163). -/
theorem judgeSlot_halts {reading : Int} {s : State} (refused : ¬ (-50 ≤ reading ∧ reading ≤ 50))
    (stop : s.cfg.policies.meterCal = true) (takes : s.stc.op.takesFrames = true) : (judgeSlot reading s).stc.op = .halted := by
  obtain ⟨now, pending, cfg, -, ses, stc, trc, trm⟩ := (slotEnded_stays reading s).rest
  rw [judgeSlot_refused s refused]
  exact (raise_halts _ (by rw [cfg]; exact stop) (by rw [stc]; exact takes)).1

end Sys2Proof.Proofs

end

section
/-! PROOF. A meter sample that neither ends the interval nor overdraws nor moves the state (R117 to R124). -/

namespace Sys2Proof.Proofs

open Sys2Proof.Machine

/-- Outside SESSION a sample without a slot becomes the latest, is judged for the presence, and begins the next period. -/
theorem sample_outside {x : MeterSample} {s : State} (out : s.stc.op ≠ .session) (other : s.mtr.cal ≠ .shorted)
    (unacted : ¬ Acted x.voltage s) : finish false s (sampleWork x s) =
      periodBegins (heardBus x.voltage { s with mtr := { s.mtr with latest := some x } }) := by
  rw [sampleWork_unacted (y := { s with mtr := { s.mtr with latest := some x } }) (before_outside out) unacted, slotTest_other other]
  exact finish_quiet rfl rfl

/-- In SESSION a sample that overdraws nothing and ends nothing is added as well. -/
theorem sample_session {x : MeterSample} {s : State} (op : s.stc.op = .session) (other : s.mtr.cal ≠ .shorted)
    (unacted : ¬ Acted x.voltage s) (short : s.mtr.interval.count < 239)
    (quiet : s.shu.overdraws false x.corrected (overdrawBound s.shu.limit s.cfg.tolerance) = false) :
    finish false s (sampleWork x s) = periodBegins (heardBus x.voltage (sampled false x s)) := by
  have before := before_short (slot := false) op short quiet
  rw [← decide_eq_false other] at before
  rw [sampleWork_unacted (y := sampled (decide (s.mtr.cal = .shorted)) x s) before (by rw [decide_eq_false other]; exact unacted),
    slotTest_other other, decide_eq_false other]
  exact finish_quiet rfl rfl

/-- A slot sample in SESSION is added with the held units, and the slot judged. -/
theorem sample_slot {x : MeterSample} {s : State} (op : s.stc.op = .session) (slot : s.mtr.cal = .shorted)
    (unacted : ¬ Acted x.voltage s) (short : s.mtr.interval.count < 239) : sampleWork x s =
      periodBegins (judgeSlot x.total (heardBus x.voltage (sampled true x s))) := by
  have before := before_short (slot := true) (x := x) op short rfl
  rw [← decide_eq_true slot] at before
  rw [sampleWork_unacted (y := sampled (decide (s.mtr.cal = .shorted)) x s) before (by rw [decide_eq_true slot]; exact unacted),
    slotTest_slot slot (by rw [decide_eq_true slot]; exact slot), decide_eq_true slot]

/-- A slot sample outside SESSION is judged alone. -/
theorem sample_slot_outside {x : MeterSample} {s : State} (out : s.stc.op ≠ .session) (slot : s.mtr.cal = .shorted)
    (unacted : ¬ Acted x.voltage s) : sampleWork x s =
      periodBegins (judgeSlot x.total (heardBus x.voltage { s with mtr := { s.mtr with latest := some x } })) := by
  rw [sampleWork_unacted (y := { s with mtr := { s.mtr with latest := some x } }) (before_outside out) unacted,
    slotTest_slot slot (y := heardBus x.voltage { s with mtr := { s.mtr with latest := some x } }) slot]

/-- Settles O57: a sample's four cases, in SESSION or not and with the slot or not, each by the steps it takes. -/
theorem meterSamplesTaken : Obligations.MeterSamplesTaken := by
  intro c mem t p m s s0 on runs passed g x ut uh bound ramped fits rises told acted run presence
  have same : sampleOf s0.trm.inUse s0.mtr.offset m = x := rfl
  have exec_eq := exec_sample_due mem t m on runs passed
  rw [show elapse t s = s0 from rfl, same] at exec_eq
  clear_value s0 
  have level : (overdrawBound s0.shu.limit s0.cfg.tolerance) = bound := rfl
  refine ⟨fun out other unacted => ?_, fun op other unacted short within => ?_, fun op slot unacted short => ?_,
    fun out slot unacted => ?_⟩
  · rw [exec_eq, sample_outside out other unacted]
    rfl
  · have quiet : s0.shu.overdraws false x.corrected (overdrawBound s0.shu.limit s0.cfg.tolerance) = false := by
      rw [level]
      refine Bool.eq_false_iff.mpr fun raised => ?_
      obtain ⟨-, zero, above, wait, count⟩ := overdraws_iff.mp raised
      rcases within with h | h | h | h
      · exact absurd above (not_lt.mpr h)
      · omega
      · omega
      · exact absurd (wait.symm.trans h) nofun
    rw [sample_session op other unacted short quiet] at exec_eq
    obtain ⟨limit, intent, record, -, setpoint⟩ := supervised_figures false x.corrected bound s0.dmu.chargerAllow s0.shu
    obtain ⟨exclusion, excluded, inside, above⟩ := supervise_counts x.corrected bound (s0.shu.ramp s0.dmu.chargerAllow)
    exact ⟨_, exec_eq, ⟨rfl, rfl, rfl, rfl, rfl, rfl, rfl, rfl⟩, rfl, rfl, rfl, rfl, rfl, rfl, rfl, rfl, rfl, limit, intent, record,
      exclusion, setpoint, excluded, inside, above⟩
  · rw [sample_slot op slot unacted short] at exec_eq
    obtain ⟨y, is⟩ : ∃ y, y = heardBus x.voltage (sampled true x s0) := ⟨_, rfl⟩
    rw [← is] at exec_eq
    have judged := judgeSlot_judged x.total y
    obtain ⟨fitting, refusing⟩ := judgeSlot_flt x.total y
    have stays := judgeSlot_stays (reading := x.total) (s := y)
    have closes := fun o => judgeSlot_closes (reading := x.total) (o := o) (s := y)
    have now := judgeSlot_now x.total y
    have logged : (slotEnded x.total y).ses.log = y.ses.log := by rw [slotEnded, endCalibrate_ses]
    have cal := periodBegins_idle judged.cal
    subst is
    refine ⟨_, exec_eq, judged.latest, cal, congrArg (fun n => some (n + 250000)) now, judged.inProgress, judged.heldHeat,
      judged.heldCharge, fun fit => ⟨judged.offset.trans (if_pos fit), fitting fit⟩,
      fun refused => ⟨judged.offset.trans (if_neg refused), refusing refused⟩, fun calm => ?_, fun o refused stop record => ?_,
      judged.slot⟩
    · obtain ⟨⟨now, pending, cfg, -, ses, stc, trc, trm⟩, mtr, shu, -⟩ :=
        stays (calm.imp_right .inl)
      exact ⟨⟨now, pending, cfg, rfl, ses, stc, trc, trm⟩, judged.run, judged.presence, (congrArg Mtr.lifetime mtr :), shu,
        (congrArg Mtr.interval mtr :)⟩
    · obtain ⟨⟨halted, contactor, -⟩, -, ses⟩ := closes o refused stop op record
      have log := congrArg Ses.log ses
      exact ⟨halted, contactor, (congrArg Ses.openRecord ses :), _, log.trans (congrArg (· ++ _) logged), rfl, rfl,
        closingRecord_number _ o⟩
  · rw [sample_slot_outside out slot unacted] at exec_eq
    obtain ⟨y, is⟩ : ∃ y, y = heardBus x.voltage { s0 with mtr := { s0.mtr with latest := some x } } := ⟨_, rfl⟩
    rw [← is] at exec_eq
    have judged := judgeSlot_judged x.total y
    obtain ⟨fitting, refusing⟩ := judgeSlot_flt x.total y
    have stays := judgeSlot_stays (reading := x.total) (s := y)
    have halts := judgeSlot_halts (reading := x.total) (s := y)
    have now := judgeSlot_now x.total y
    have cal := periodBegins_idle judged.cal
    subst is
    refine ⟨_, exec_eq, cal, judged.presence, judged.run, judged.latest, congrArg (fun n => some (n + 250000)) now, judged.inProgress,
      fun fit => ⟨judged.offset.trans (if_pos fit), fitting fit, ?_⟩,
      fun refused => ⟨judged.offset.trans (if_neg refused), refusing refused, fun stop line => ?_, fun calm => ?_⟩, judged.slot⟩
    · exact (stays (.inl fit)).rest.2.2.2.2.2.1
    · refine halts refused stop ?_
      rcases line with h | h <;> exact (congrArg OpState.takesFrames h :)
    · have quiet : s0.cfg.policies.meterCal = false ∨ s0.stc.op.takesFrames = false := by
        rcases calm with h | h | h
        · exact .inl h
        · exact .inr (congrArg OpState.takesFrames h :)
        · exact .inr (congrArg OpState.takesFrames h :)
      exact ⟨(stays (.inr quiet)).rest.2.2.2.2.2.1, (stays (.inr quiet)).dli⟩

end Sys2Proof.Proofs

end

section
/-! PROOF. What stands in SESSION once a sample's energy, its supervision and an interval's end are done (R118 steps 1 to 3). -/

namespace Sys2Proof.Proofs

open Sys2Proof.Machine

/-! ## The sample added and supervised, without a halt -/

/-- The sample is added to the meter, and no more than the supervision's counts and a recorded fault have moved beside it. -/
structure Counted (slot : Bool) (x : MeterSample) (s z : State) : Prop where
  mtr : z.mtr = { s.mtr.accumulate slot x with latest := some x }
  rest : RestKept { s with mtr := z.mtr } z
  dmu : z.dmu = s.dmu
  htr : z.htr = s.htr
  dli : z.dli = s.dli
  ptb : z.ptb = s.ptb
  slot : z.vlk.slot = s.vlk.slot
  inProgress : z.vlk.inProgress = s.vlk.inProgress
  limit : z.shu.limit = s.shu.limit
  peak : z.shu.peak = s.shu.peak

theorem counted_sampled (slot : Bool) (x : MeterSample) (s : State) : Counted slot x s (sampled slot x s) := by
  obtain ⟨limit, -, -, peak, -⟩ :=
    supervised_figures slot x.corrected (overdrawBound s.shu.limit s.cfg.tolerance) s.dmu.chargerAllow s.shu
  exact ⟨rfl, ⟨rfl, rfl, rfl, rfl, rfl, rfl, rfl, rfl⟩, rfl, rfl, rfl, rfl, rfl, rfl, limit, peak⟩

/-- OVERDRAW recorded under the continue policy, and the wait set (R50). -/
def overdrawn (x : MeterSample) (s : State) : State :=
  { recordFault .overdraw (.number x.corrected) (sampled false x s) with shu := (sampled false x s).shu.waitAfterOverdraw }

theorem overdrawRaised_continue {x : MeterSample} {s : State} (policy : s.cfg.policies.overdraw = false) :
    overdrawRaised x.corrected (sampled false x s) = overdrawn x s := by
  have continues : isStop (sampled false x s).cfg.policies .overdraw = false := policy
  rw [overdrawRaised, continues, raise_continue _ continues]
  rfl

theorem overdrawRaised_stop {x : MeterSample} {s : State} (policy : s.cfg.policies.overdraw = true) :
    overdrawRaised x.corrected (sampled false x s) = raise .overdraw (.number x.corrected) (sampled false x s) := by
  have stops : isStop (sampled false x s).cfg.policies .overdraw = true := policy
  rw [overdrawRaised, stops]
  rfl

theorem counted_overdrawn (x : MeterSample) (s : State) : Counted false x s (overdrawn x s) := by
  have counted := counted_sampled false x s
  exact ⟨rfl, ⟨rfl, rfl, rfl, rfl, rfl, rfl, rfl, rfl⟩, rfl, rfl, rfl, rfl, rfl, rfl, counted.limit, counted.peak⟩

/-! ## The interval's end (R126) -/

/-- The interval credited, the snapshot written and the demand figures read again, before they are handed on (R126 steps 1 to 4). -/
def intervalRead (z : State) : State := reweigh (refreshDemand (rereadDelivered (writeSnapshot (creditInterval z))))

theorem intervalEnds_eq (z : State) : intervalEnds z = { settleDemand z.dmu (intervalRead z) with
    mtr := { (settleDemand z.dmu (intervalRead z)).mtr with
      interval := (settleDemand z.dmu (intervalRead z)).mtr.interval.next (currentBand (settleDemand z.dmu (intervalRead z))) } } :=
  rfl

/-- The record an interval's end leaves, and the snapshot's (R126, R136). -/
abbrev creditedRecord (z : State) (o : OpenRecord) : OpenRecord := { o.credit z.mtr.interval with peak := z.shu.peak }

theorem intervalRead_ses {z : State} {o : OpenRecord} (record : z.ses.openRecord = some o) : (intervalRead z).ses = { z.ses with
    openRecord := some (creditedRecord z o)
    snapshot := some { record := creditedRecord z o, time := clock z
                       lifetime := z.mtr.lifetime + creditTotal z.mtr.interval (some o) } } := by
  rw [intervalRead]
  show (writeSnapshot (creditInterval z)).ses = _
  rw [writeSnapshot, creditInterval, record]
  rfl

theorem intervalRead_mtr {z : State} {o : OpenRecord} (record : z.ses.openRecord = some o) : (intervalRead z).mtr = { z.mtr with
    lifetime := z.mtr.lifetime + creditTotal z.mtr.interval (some o), interval := z.mtr.interval.remainders } := by
  rw [← record]
  rfl

theorem settleDemand_peak (before : Dmu) (s : State) : (settleDemand before s).shu.peak = s.shu.peak := by
  unfold settleDemand
  split
  · rfl
  · show (regrant s).shu.peak = _
    rw [regrant_shu, applyGrant_eq, (grantTaken_peak _).1]

/-- What a session's close credits and appends is the interval `ended`, credited once, and the record `o` with it (R118, R127). -/
structure CreditDue (ended : Interval) (o : OpenRecord) (s y : State) (now : OpenRecord) : Prop where
  record : y.ses.openRecord = some now
  number : now.number = o.number
  closing : { closingRecord y.mtr.interval now with peak := y.shu.peak } = { o.credit ended with peak := s.shu.peak }
  lifetime : y.mtr.lifetime + (if y.mtr.interval.count = 0 then 0 else creditTotal y.mtr.interval (some now)) =
    s.mtr.lifetime + (creditOf ended o).1 + (creditOf ended o).2

/-- The meter's sample and slot, the link and the log as the sample found them, with the credit that is due at a close. -/
structure BeforeBus (x : MeterSample) (s z y : State) : Prop where
  latest : y.mtr.latest = some x
  offset : y.mtr.offset = s.mtr.offset
  cal : y.mtr.cal = s.mtr.cal
  presence : y.mtr.presence = s.mtr.presence
  run : y.mtr.run = s.mtr.run
  stc : y.stc = s.stc
  cfg : y.cfg = s.cfg
  trc : y.trc = s.trc
  trm : y.trm = s.trm
  now : y.now = s.now
  pending : y.pending = s.pending
  log : y.ses.log = s.ses.log
  ptb : y.ptb = s.ptb
  flt : y.flt = z.flt
  vlk : y.vlk = z.vlk

variable {slot : Bool} {x : MeterSample} {s z : State}

theorem creditDue_counted {o : OpenRecord} (h : Counted slot x s z) (record : s.ses.openRecord = some o) :
    CreditDue (s.mtr.accumulate slot x).interval o s z o := by
  obtain ⟨-, -, -, -, ses, -⟩ := h.rest
  have nonzero : (s.mtr.accumulate slot x).interval.count ≠ 0 := by
    rw [accumulate_count]
    exact Nat.succ_ne_zero _
  refine ⟨by rw [ses]; exact record, rfl, ?_, ?_⟩
  · rw [h.mtr, h.peak, closingRecord, if_neg nonzero]
  · rw [h.mtr, if_neg nonzero]
    show (s.mtr.accumulate slot x).lifetime + _ = _
    rw [accumulate_lifetime, Nat.add_assoc]
    rfl

theorem beforeBus_counted (h : Counted slot x s z) : BeforeBus x s z z := by
  obtain ⟨offset, cal, presence, run, -⟩ := accumulate_kept slot x s.mtr
  obtain ⟨now, pending, cfg, -, ses, stc, trc, trm⟩ := h.rest
  refine ⟨?_, ?_, ?_, ?_, ?_, stc, cfg, trc, trm, now, pending, by rw [ses], h.ptb, rfl, rfl⟩
  · rw [h.mtr]
  · rw [h.mtr]; exact offset
  · rw [h.mtr]; exact cal
  · rw [h.mtr]; exact presence
  · rw [h.mtr]; exact run

/-- An interval's end leaves nothing to credit at a close that follows it: its count is 0 (R118 step 3). -/
theorem creditDue_intervalEnds {o : OpenRecord} (h : Counted slot x s z) (record : s.ses.openRecord = some o) :
    CreditDue (s.mtr.accumulate slot x).interval o s (intervalEnds z) (creditedRecord z o) := by
  obtain ⟨-, -, -, -, ses, -⟩ := h.rest
  have recordNow : z.ses.openRecord = some o := by rw [ses]; exact record
  have zero : (intervalEnds z).mtr.interval.count = 0 := rfl
  have interval : z.mtr.interval = (s.mtr.accumulate slot x).interval := by rw [h.mtr]
  refine ⟨?_, rfl, ?_, ?_⟩
  · rw [intervalEnds_eq, settleDemand_ses, intervalRead_ses recordNow]
  · rw [closingRecord, if_pos zero, ← interval]
    have peak : (intervalEnds z).shu.peak = s.shu.peak := by
      rw [intervalEnds_eq, settleDemand_peak, ← h.peak]
      rfl
    rw [peak]
  · rw [if_pos zero, intervalEnds_eq, settleDemand_mtr, intervalRead_mtr recordNow, interval, ← accumulate_lifetime slot x s.mtr]
    show z.mtr.lifetime + _ + 0 = _
    rw [h.mtr]
    exact (Nat.add_assoc _ _ _).symm

theorem intervalRead_eq (z : State) : intervalRead z = { z with
    dmu := (intervalRead z).dmu
    ses := (intervalRead z).ses
    mtr := { z.mtr with
      lifetime := z.mtr.lifetime + creditTotal z.mtr.interval z.ses.openRecord, interval := z.mtr.interval.remainders } } := rfl

/-- Crediting the interval and reading the figures again leave what the later steps look at. -/
theorem BeforeBus.intervalRead (h : BeforeBus x s z z) : BeforeBus x s z (intervalRead z) := by
  have log : (Proofs.intervalRead z).ses.log = s.ses.log := h.log
  rw [intervalRead_eq]
  exact ⟨h.latest, h.offset, h.cal, h.presence, h.run, h.stc, h.cfg, h.trc, h.trm, h.now, h.pending, log, h.ptb, rfl, rfl⟩

variable {y : State}

theorem BeforeBus.settleDemand (before : Dmu) (h : BeforeBus x s z y) : BeforeBus x s z (settleDemand before y) where
  latest := by rw [settleDemand_mtr]; exact h.latest
  offset := by rw [settleDemand_mtr]; exact h.offset
  cal := by rw [settleDemand_mtr]; exact h.cal
  presence := by rw [settleDemand_mtr]; exact h.presence
  run := by rw [settleDemand_mtr]; exact h.run
  stc := by rw [settleDemand_stc]; exact h.stc
  cfg := by rw [settleDemand_cfg]; exact h.cfg
  trc := by rw [settleDemand_trc]; exact h.trc
  trm := by rw [settleDemand_trm]; exact h.trm
  now := by rw [settleDemand_now]; exact h.now
  pending := by rw [settleDemand_pending]; exact h.pending
  log := by rw [settleDemand_ses]; exact h.log
  ptb := by rw [settleDemand_ptb]; exact h.ptb
  flt := by rw [settleDemand_flt]; exact h.flt
  vlk := by rw [settleDemand_vlk]; exact h.vlk

theorem BeforeBus.nextInterval (i : Interval) (h : BeforeBus x s z y) :
    BeforeBus x s z { y with mtr := { y.mtr with interval := i } } :=
  ⟨h.latest, h.offset, h.cal, h.presence, h.run, h.stc, h.cfg, h.trc, h.trm, h.now, h.pending, h.log, h.ptb, h.flt, h.vlk⟩

theorem beforeBus_intervalEnds (h : Counted slot x s z) : BeforeBus x s z (intervalEnds z) := by
  rw [intervalEnds_eq]
  exact ((beforeBus_counted h).intervalRead.settleDemand z.dmu).nextInterval _

/-! ## The steps before the bus in SESSION (R118 steps 1 to 3) -/

/-- The sample takes the count to 4 above the bound: OVERDRAW is raised (R48, R49). -/
abbrev Exceeds (x : MeterSample) (s : State) : Prop :=
  s.mtr.cal ≠ .shorted ∧ s.shu.exclusion = 0 ∧ overdrawBound s.shu.limit s.cfg.tolerance < x.corrected ∧ s.shu.overWait = false ∧
    3 ≤ s.shu.overCount

theorem exceeds_iff : Exceeds x s ↔ s.shu.overdraws (decide (s.mtr.cal = .shorted)) x.corrected
    (overdrawBound s.shu.limit s.cfg.tolerance) = true := by
  rw [overdraws_iff, decide_eq_false_iff_not]

/-- The steps before the bus, as one state. -/
abbrev beforeBus (x : MeterSample) (s : State) : State :=
  intervalTest (creditSample (decide (s.mtr.cal = .shorted)) x { s with mtr := { s.mtr with latest := some x } })

/-- The supervised state: an overdraw under the continue policy recorded, or nothing. -/
def supervisedState (x : MeterSample) (s : State) : State :=
  if Exceeds x s then overdrawn x s else sampled (decide (s.mtr.cal = .shorted)) x s

theorem counted_supervised : Counted (decide (s.mtr.cal = .shorted)) x s (supervisedState x s) := by
  unfold supervisedState
  split
  · next exceeds =>
    rw [decide_eq_false exceeds.1]
    exact counted_overdrawn x s
  · exact counted_sampled _ x s

/-- Where nothing halts, the sample is added and supervised, and the 240th ends the interval (R118). -/
theorem beforeBus_eq (op : s.stc.op = .session) (policy : Exceeds x s → s.cfg.policies.overdraw = false) :
    beforeBus x s = if 239 ≤ s.mtr.interval.count then intervalEnds (supervisedState x s) else supervisedState x s := by
  have credited : creditSample (decide (s.mtr.cal = .shorted)) x { s with mtr := { s.mtr with latest := some x } } =
      supervisedState x s := by
    unfold supervisedState
    split
    · next exceeds =>
      rw [creditSample_overdraws op (exceeds_iff.mp exceeds), decide_eq_false exceeds.1, overdrawRaised_continue (policy exceeds)]
    · next calm => rw [creditSample_quiet op (Bool.eq_false_iff.mpr fun raised => calm (exceeds_iff.mpr raised))]
  have counted := counted_supervised (x := x) (s := s)
  obtain ⟨-, -, -, -, -, stc, -⟩ := counted.rest
  have count : (supervisedState x s).mtr.interval.count = s.mtr.interval.count + 1 := by
    rw [counted.mtr]
    exact accumulate_count _ _ _
  rw [beforeBus, credited]
  split
  · next full => exact intervalTest_full (by rw [stc]; exact op) (by omega)
  · next short => exact intervalTest_short (by omega)

/-- What the later steps find after them, and what a close finds: the sample's interval credited once, whether it ended or not. -/
theorem beforeBus_kept (op : s.stc.op = .session) (policy : Exceeds x s → s.cfg.policies.overdraw = false) :
    BeforeBus x s (supervisedState x s) (beforeBus x s) := by
  rw [beforeBus_eq op policy]
  split
  · exact beforeBus_intervalEnds counted_supervised
  · exact beforeBus_counted counted_supervised

theorem beforeBus_due {o : OpenRecord} (op : s.stc.op = .session) (record : s.ses.openRecord = some o)
    (policy : Exceeds x s → s.cfg.policies.overdraw = false) :
    ∃ now, CreditDue (s.mtr.accumulate (decide (s.mtr.cal = .shorted)) x).interval o s (beforeBus x s) now := by
  rw [beforeBus_eq op policy]
  split
  · exact ⟨_, creditDue_intervalEnds counted_supervised record⟩
  · exact ⟨_, creditDue_counted counted_supervised record⟩

/-- The faults of the supervision: OVERDRAW where it exceeds, and none otherwise. -/
theorem supervised_flt : (Exceeds x s → FaultRaised .overdraw (.number x.corrected) s (supervisedState x s)) ∧
    (¬ Exceeds x s → (supervisedState x s).flt = s.flt) := by
  refine ⟨fun exceeds => ?_, fun calm => ?_⟩
  · rw [supervisedState, if_pos exceeds]
    exact ⟨recordFault_flt _ _ (sampled false x s), rfl⟩
  · rw [supervisedState, if_neg calm]
    rfl

end Sys2Proof.Proofs

end

section
/-! PROOF. The bus lost and the bus present, and what they leave (R124, R159, R162). -/

namespace Sys2Proof.Proofs

open Sys2Proof.Machine

/-! ## Grants of 0 that move nothing -/

theorem grant_outside {s : State} (out : s.stc.op ≠ .session) : (computeGrant s.grantInputs).grant = 0 :=
  (grant_zero (cause_noSession (i := s.grantInputs) (by simp [State.grantInputs, out])) nofun).1

/-- Outside SESSION, with nothing drawn or intended, the grant of 0 queues no ANNOUNCE (R37). -/
theorem regrant_still {s : State} (out : s.stc.op ≠ .session) (limit : s.shu.limit = 0) (intent : s.shu.intent = 0) :
    (regrant s).dli = s.dli := by
  rw [regrant_dli]
  refine if_neg ?_
  simp [Shu.grantMoves, grant_outside out, limit, intent]

/-! ## READY entered from the line (R162) -/

/-- The station is in READY with LEAVE queued alone of its own frames, its table empty and the presence ABSENT (R162). -/
structure Readied (s q : State) : Prop where
  op : q.stc.op = .ready
  window : q.stc.listenWindow = none
  presence : q.mtr.presence = .absent
  run : q.mtr.run = 0
  cycle : q.htr.cycleStart = none
  entries : q.ptb.entries = []
  unlisted : q.ptb.unlisted = none
  feeder : q.ptb.feeder = s.cfg.feederLimit
  leave : q.dli.queue.leave = some { content := .none, failed := 0 }
  finding : q.dli.queue.finding = none
  epoch : q.dli.queue.epoch = none
  announce : q.dli.queue.announce = none
  timer : q.dli.announce = none
  limit : q.shu.limit = 0
  intent : q.shu.intent = 0
  trc : q.trc = s.trc
  cfg : q.cfg = s.cfg
  trm : q.trm = s.trm
  now : q.now = s.now
  pending : q.pending = s.pending

/-- READY entered with LEAVE queued, as the report that the bus is lost does it (R162). -/
def leftForReady (s : State) : State := enterReady (queueFrame .leave .none s)

/-- READY is entered with nothing drawn or intended, and its grant of 0 queues no ANNOUNCE where nothing was. -/
theorem leftForReady_drained {s : State} (out : s.stc.op ≠ .session) :
    (leftForReady s).shu.limit = 0 ∧ (leftForReady s).shu.intent = 0 ∧ (s.shu.limit = 0 → s.shu.intent = 0 →
      (leftForReady s).dli = (queueFrame .leave .none s).dli.enterReady s.now) := by
  obtain ⟨e, is⟩ : ∃ e, e = emptyTable (leaveBus { queueFrame .leave .none s with
    dli := (queueFrame .leave .none s).dli.enterReady (queueFrame .leave .none s).now
    mtr := (queueFrame .leave .none s).mtr.enterReady, htr := (queueFrame .leave .none s).htr.stopCycle }) := ⟨_, rfl⟩
  have entered : leftForReady s = resplit (regrant e) := by rw [is]; rfl
  have outside : e.stc.op ≠ .session := by rw [is]; exact out
  obtain ⟨limitNow, intentNow, -⟩ := regrant_quiet outside
  obtain ⟨limitThen, intentThen, -⟩ := resplit_quiet limitNow
  rw [entered]
  refine ⟨limitThen, intentThen.trans intentNow, fun limit intent => ?_⟩
  rw [resplit_dli, regrant_still outside (by rw [is]; exact limit) (by rw [is]; exact intent), is]
  rfl

theorem leftForReady_readied {s : State} (op : s.stc.op = .ready) (window : s.stc.listenWindow = none) (limit : s.shu.limit = 0)
    (intent : s.shu.intent = 0) : Readied s (leftForReady s) := by
  obtain ⟨-, ptb, mtr, cycle, queue⟩ := enterReady_spec (queueFrame .leave .none s)
  have out : (queueFrame .leave .none s).stc.op ≠ .session := by
    rw [queueFrame_stc, op]
    exact nofun
  have leave := queueFrame_queued s.stc.op .leave .none s.dli (by rw [op]; exact nofun) (by decide)
  obtain ⟨limitThen, intentThen, line⟩ := leftForReady_drained (s := s) out
  have dli := line limit intent
  exact {
    op := by rw [leftForReady, enterReady_stc]; exact op
    window := by rw [leftForReady, enterReady_stc]; exact window
    presence := by rw [leftForReady, mtr]; rfl
    run := by rw [leftForReady, mtr]; rfl
    cycle := cycle
    entries := by rw [leftForReady, ptb]
    unlisted := by rw [leftForReady, ptb]
    feeder := by rw [leftForReady, ptb]; rfl
    leave := (queue .leave (by decide)).trans leave
    finding := by rw [dli]; rfl
    epoch := by rw [dli]; rfl
    announce := by rw [dli]; rfl
    timer := by rw [dli]; rfl
    limit := limitThen
    intent := intentThen
    trc := by rw [leftForReady, enterReady_trc]; rfl
    cfg := by rw [leftForReady, enterReady_cfg]; rfl
    trm := by rw [leftForReady, enterReady_trm]; rfl
    now := by rw [leftForReady, enterReady_now]; rfl
    pending := by rw [leftForReady, enterReady_pending]; rfl }

theorem leftForReady_flt (s : State) : (leftForReady s).flt = s.flt := by
  rw [leftForReady, enterReady_flt, queueFrame_flt]

theorem leftForReady_mtr (s : State) : (leftForReady s).mtr = s.mtr.enterReady := (enterReady_spec (queueFrame .leave .none s)).2.2.1

theorem leftForReady_stc (s : State) : (leftForReady s).stc = s.stc := by
  rw [leftForReady, enterReady_stc, queueFrame_stc]

theorem leftForReady_ses (s : State) : (leftForReady s).ses = s.ses := by
  rw [leftForReady, enterReady_ses, queueFrame_ses]

theorem leftForReady_vlk (s : State) : (leftForReady s).vlk = s.vlk := by
  rw [leftForReady, enterReady_vlk, queueFrame_vlk]

theorem leftForReady_enable (s : State) : (leftForReady s).shu.enable = s.shu.enable := by
  show (regrant (emptyTable (leaveBus { queueFrame .leave .none s with
    dli := (queueFrame .leave .none s).dli.enterReady (queueFrame .leave .none s).now
    mtr := (queueFrame .leave .none s).mtr.enterReady, htr := (queueFrame .leave .none s).htr.stopCycle }))).shu.enable = _
  rw [regrant_shu, applyGrant_eq, (grantTaken_peak _).2]
  rfl

/-! ## The bus lost (R124, R162) -/

theorem busLost_session {s : State} (op : s.stc.op = .session) : busLost s = leftForReady (depart .busLost none .ready s) := by
  simp only [busLost, op]
  rfl

theorem busLost_listening {s : State} (op : s.stc.op = .listening ∨ s.stc.op = .linked) :
    busLost s = leftForReady (moveTo .ready s) := by
  rcases op with op | op <;> simp only [busLost, op] <;> rfl

theorem Readied.of_kept {s m q : State} (h : Readied m q) (trc : m.trc = s.trc) (cfg : m.cfg = s.cfg) (trm : m.trm = s.trm)
    (now : m.now = s.now) (pending : m.pending = s.pending) : Readied s q :=
  { h with
    feeder := by rw [← cfg]; exact h.feeder
    trc := h.trc.trans trc
    cfg := h.cfg.trans cfg
    trm := h.trm.trans trm
    now := h.now.trans now
    pending := h.pending.trans pending }

theorem busLost_readied {s : State} (takes : s.stc.op.takesFrames = true) : Readied s (busLost s) := by
  have three : s.stc.op = .session ∨ s.stc.op = .listening ∨ s.stc.op = .linked := by
    cases op : s.stc.op <;> simp_all [OpState.takesFrames]
  rcases three with op | op
  · obtain ⟨stc, -, -, -, limit, intent, -⟩ := depart_spec .busLost none .ready s nofun
    obtain ⟨cfg, -, -, trc, -, trm, now, pending⟩ := depart_kept .busLost none .ready s
    rw [busLost_session op]
    exact (leftForReady_readied (congrArg Stc.op stc :) (congrArg Stc.listenWindow stc :) limit intent).of_kept trc cfg trm now pending
  · obtain ⟨stc, limit, intent, -⟩ := moveTo_spec .ready s nofun
    rw [busLost_listening op]
    exact (leftForReady_readied (congrArg Stc.op stc :) (congrArg Stc.listenWindow stc :) limit intent).of_kept (by simp) (by simp)
      (by simp) (by simp) (by simp)

/-- A loss reported from LISTENING or LINKED leaves the meter's slot and the link's results (R162). -/
theorem busLost_line {s : State} (op : s.stc.op = .listening ∨ s.stc.op = .linked) : let q := busLost s
    q.mtr = s.mtr.enterReady ∧ q.flt = s.flt ∧ q.vlk.inProgress = s.vlk.inProgress ∧ q.vlk.slot = s.vlk.slot := by
  intro q
  obtain ⟨inProgress, slot⟩ := moveTo_slot .ready s
  have vlk : q.vlk = (moveTo .ready s).vlk := by
    simp only [q, busLost_listening op]
    rw [leftForReady, enterReady_vlk, queueFrame_vlk]
  refine ⟨?_, ?_, by rw [vlk, inProgress], by rw [vlk, slot]⟩
  · simp only [q, busLost_listening op]
    rw [leftForReady_mtr, moveTo_mtr]
  · simp only [q, busLost_listening op]
    rw [leftForReady_flt, moveTo_flt]

/-- A loss reported in SESSION leaves the sample and the offset, and no slot. -/
theorem busLost_meter {s : State} (op : s.stc.op = .session) : let q := busLost s
    q.mtr.latest = s.mtr.latest ∧ q.mtr.offset = s.mtr.offset ∧ q.mtr.cal = .idle ∧ q.flt = s.flt := by
  intro q
  obtain ⟨⟨latest, offset, -⟩, cal⟩ := depart_sample .busLost none (dest := .ready) s nofun
  obtain ⟨-, -, -, -, flt, -⟩ := depart_kept .busLost none .ready s
  have is : q = leftForReady (depart .busLost none .ready s) := busLost_session op
  rw [is, leftForReady_mtr, leftForReady_flt]
  exact ⟨latest, offset, cal, flt⟩

theorem leftForReady_departed {s : State} (h : Departed .ready s) : Departed .ready (leftForReady s) := by
  obtain ⟨op, contactor, -, -, enable, interval, record⟩ := h
  obtain ⟨limit, intent, -⟩ := leftForReady_drained (s := s) (by rw [op]; exact nofun)
  exact ⟨by rw [leftForReady_stc, op], by rw [leftForReady_stc, contactor], limit, intent, by rw [leftForReady_enable, enable],
    by rw [leftForReady_mtr]; exact interval, by rw [leftForReady_ses, record]⟩

theorem busLost_departed {s : State} (op : s.stc.op = .session) : Departed .ready (busLost s) := by
  rw [busLost_session op]
  exact leftForReady_departed (depart_departed .busLost none s nofun)

/-- A loss reported in SESSION closes the session (R162). -/
theorem busLost_closes {o : OpenRecord} {s : State} (op : s.stc.op = .session) (record : s.ses.openRecord = some o) :
    SessionLeft .busLost none .ready o s (busLost s) := by
  have left := depart_left .busLost none (dest := .ready) (s := s) nofun record
  have is : busLost s = leftForReady (depart .busLost none .ready s) := busLost_session op
  have mtr : (busLost s).mtr = (depart .busLost none .ready s).mtr.enterReady := by rw [is, leftForReady_mtr]
  refine ⟨busLost_departed op, ?_, ?_⟩
  · rw [mtr]; exact left.lifetime
  · rw [mtr, is, leftForReady_ses]; exact left.ses

theorem abandonSlot_answers {s : State} (busy : s.mtr.cal ≠ .idle) : (abandonSlot s).vlk.inProgress = none ∧
    ∀ tag, s.vlk.inProgress = some tag → (abandonSlot s).vlk.slot =
      some { tag := tag, code := 0x0E#8, result := .abandoned, clampMask := 0, data := [] } := by
  rw [abandonSlot, if_neg busy]
  exact endCalibrate_answers .abandoned [] { s with mtr := { s.mtr with cal := .idle } }

theorem partialInterval_cal (s : State) : (partialInterval s).mtr.cal = s.mtr.cal := by
  unfold partialInterval
  split <;> rfl

/-- A session's close ends CALIBRATE METER as ABANDONED, where its slot is asked for or runs (R122). -/
theorem closeSession_abandons (reason : CloseReason) (code : Option FaultCode) {s : State} (busy : s.mtr.cal ≠ .idle) :
    (closeSession reason code s).vlk.inProgress = none ∧ ∀ tag, s.vlk.inProgress = some tag →
      (closeSession reason code s).vlk.slot =
        some { tag := tag, code := 0x0E#8, result := .abandoned, clampMask := 0, data := [] } := by
  obtain ⟨ended, answers⟩ := abandonSlot_answers (s := post .sessionClosed { partialInterval s with
    ses := (partialInterval s).ses.close (clock (partialInterval s)) (partialInterval s).mtr.lifetime (partialInterval s).shu.peak
      reason code
    mtr := { (partialInterval s).mtr with interval := Interval.none } }) (by rw [← partialInterval_cal] at busy; exact busy)
  exact ⟨ended, fun tag is => answers tag ((congrArg Vlk.inProgress (partialInterval_vlk s)).trans is)⟩

theorem busLost_abandons {s : State} (op : s.stc.op = .session) (busy : s.mtr.cal ≠ .idle) :
    (busLost s).vlk.inProgress = none ∧ ∀ tag, s.vlk.inProgress = some tag → (busLost s).vlk.slot =
      some { tag := tag, code := 0x0E#8, result := .abandoned, clampMask := 0, data := [] } := by
  obtain ⟨-, -, -, -, -, -, -, -, -, -, vlk, -⟩ := depart_spec .busLost none .ready s nofun
  rw [busLost_session op, leftForReady_vlk, vlk]
  exact closeSession_abandons .busLost none busy

/-! ## The samples that report (R124) -/

/-- Four samples in a row below the threshold report the bus lost. -/
abbrev Lost (v : Nat) (s : State) : Prop := s.mtr.presence = .present ∧ v < s.cfg.busThreshold ∧ 3 ≤ s.mtr.run

theorem judgeBus_lost {v : Nat} {s : State} (lost : Lost v s) : judgeBus v s = busLost (heardBus v s) := by
  have absent : s.mtr.reportsPresent s.cfg.busThreshold v = false :=
    Bool.eq_false_iff.mpr fun reports => absurd (lost.1.symm.trans (reportsPresent_iff.mp reports).1) nofun
  rw [judgeBus, absent, reportsLost_iff.mpr lost, judgePresence_eq]
  rfl

theorem judgeBus_present {v : Nat} {s : State} (absent : s.mtr.presence = .absent) (high : s.cfg.busThreshold ≤ v)
    (long : 3 ≤ s.mtr.run) : judgeBus v s = busPresent (heardBus v s) := by
  rw [judgeBus, reportsPresent_iff.mpr ⟨absent, high, long⟩, judgePresence_eq]
  rfl

theorem sampleWork_lost {x : MeterSample} {s y : State} (before : beforeBus x s = y) (lost : Lost x.voltage y) :
    sampleWork x s =
      periodBegins (slotTest (decide (s.mtr.cal = .shorted)) x.total (busLost (heardBus x.voltage y))) := by
  subst before
  rw [sampleWork, judgeBus_lost lost]
  rfl

theorem slotTest_idle {b : Bool} {reading : Int} {y : State} (idle : y.mtr.cal = .idle) : slotTest b reading y = y := by
  rw [slotTest, idle]
  exact if_neg (by simp)

/-- The loss is the same one after the steps before the bus. -/
theorem lost_before {x : MeterSample} {s z y : State} (before : BeforeBus x s z y) (lost : Lost x.voltage s) : Lost x.voltage y := by
  rw [Lost, before.presence, before.cfg, before.run]
  exact lost

/-- In SESSION a loss closes the session, and its slot with it: nothing is judged (R122, R162). -/
theorem sampleWork_lost_session {x : MeterSample} {s : State} (op : s.stc.op = .session) (lost : Lost x.voltage s)
    (policy : Exceeds x s → s.cfg.policies.overdraw = false) :
    sampleWork x s = periodBegins (busLost (heardBus x.voltage (beforeBus x s))) := by
  have before := beforeBus_kept op policy
  have opNow : (heardBus x.voltage (beforeBus x s)).stc.op = .session := by
    show (beforeBus x s).stc.op = _
    rw [before.stc, op]
  obtain ⟨-, -, cal, -⟩ := busLost_meter opNow
  rw [sampleWork_lost rfl (lost_before before lost), slotTest_idle cal]

/-- Off SESSION a loss reported from the line leaves it for READY before the slot is judged. -/
theorem sampleWork_lost_line {x : MeterSample} {s : State} (op : s.stc.op = .listening ∨ s.stc.op = .linked)
    (lost : Lost x.voltage s) : sampleWork x s = periodBegins (slotTest (decide (s.mtr.cal = .shorted)) x.total
      (busLost (heardBus x.voltage { s with mtr := { s.mtr with latest := some x } }))) := by
  have out : s.stc.op ≠ .session := by
    rcases op with op | op <;> rw [op] <;> exact nofun
  exact sampleWork_lost (before_outside out) lost

/-- READY as the loss left it, whatever the slot's end adds. -/
theorem Readied.of_slot {reading : Int} {s b q : State} (h : Readied s b) (stays : SlotStays reading b q) : Readied s q := by
  obtain ⟨now, pending, cfg, -, ses, stc, trc, trm⟩ := stays.rest
  have mtr := stays.mtr
  exact {
    op := by rw [stc]; exact h.op
    window := by rw [stc]; exact h.window
    presence := by rw [mtr]; exact h.presence
    run := by rw [mtr]; exact h.run
    cycle := by rw [stays.htr]; exact h.cycle
    entries := by rw [stays.ptb]; exact h.entries
    unlisted := by rw [stays.ptb]; exact h.unlisted
    feeder := by rw [stays.ptb]; exact h.feeder
    leave := by rw [stays.dli]; exact h.leave
    finding := by rw [stays.dli]; exact h.finding
    epoch := by rw [stays.dli]; exact h.epoch
    announce := by rw [stays.dli]; exact h.announce
    timer := by rw [stays.dli]; exact h.timer
    limit := by rw [stays.shu]; exact h.limit
    intent := by rw [stays.shu]; exact h.intent
    trc := trc.trans h.trc
    cfg := cfg.trans h.cfg
    trm := trm.trans h.trm
    now := now.trans h.now
    pending := pending.trans h.pending }

end Sys2Proof.Proofs

end

section
/-! PROOF. The bus reported present and lost (R47, R124, R134, R159, R162). -/

namespace Sys2Proof.Proofs

open Sys2Proof.Machine

theorem Readied.periodBegins {s b : State} (h : Readied s b) : Readied s (periodBegins b) := { h with }

/-- The record closed by the loss, and the contactor opened (R138, R162). -/
theorem lost_closed {o : OpenRecord} {s q : State} (left : SessionLeft .busLost none .ready o s q) :
    q.stc.contactor = false ∧ q.ses.openRecord = none ∧ q.ses.snapshot = none ∧ ∃ k, q.ses.log = s.ses.log ++ [k] ∧
      k.reason = .busLost ∧ k.faultCode = none ∧ k.record.number = o.number :=
  ⟨left.contactor, (congrArg Ses.openRecord left.ses :), (congrArg Ses.snapshot left.ses :), _, (congrArg Ses.log left.ses :), rfl, rfl,
    closingRecord_number _ o⟩

/-- A loss in SESSION after the steps before the bus: READY, the sample kept, and the record of the session closed. -/
theorem lost_session {x : MeterSample} {s : State} (op : s.stc.op = .session) (policy : Exceeds x s → s.cfg.policies.overdraw = false) :
    let q := busLost (heardBus x.voltage (beforeBus x s))
    Readied s q ∧ q.mtr.latest = some x ∧ q.mtr.offset = s.mtr.offset ∧ q.mtr.cal = .idle ∧ q.flt = (supervisedState x s).flt ∧
      (∀ o, s.ses.openRecord = some o → ∃ now, CreditDue (s.mtr.accumulate (decide (s.mtr.cal = .shorted)) x).interval o s
        (beforeBus x s) now ∧ SessionLeft .busLost none .ready now (heardBus x.voltage (beforeBus x s)) q) := by
  intro q
  have before := beforeBus_kept op policy
  have opNow : (heardBus x.voltage (beforeBus x s)).stc.op = .session := by
    show (beforeBus x s).stc.op = _
    rw [before.stc, op]
  obtain ⟨latest, offset, cal, flt⟩ := busLost_meter opNow
  have readied := busLost_readied (s := heardBus x.voltage (beforeBus x s)) (by rw [opNow]; rfl)
  refine ⟨readied.of_kept before.trc before.cfg before.trm before.now before.pending, latest.trans before.latest,
    offset.trans before.offset, cal, flt.trans before.flt, fun o record => ?_⟩
  obtain ⟨now, due⟩ := beforeBus_due op record policy
  exact ⟨now, due, busLost_closes (s := heardBus x.voltage (beforeBus x s)) opNow due.record⟩

/-- The closed record of a loss, as the sample found the session. -/
theorem lost_session_closed {x : MeterSample} {o : OpenRecord} {s q : State} (op : s.stc.op = .session)
    (policy : Exceeds x s → s.cfg.policies.overdraw = false) {now : OpenRecord} {i : Interval}
    (due : CreditDue i o s (beforeBus x s) now)
    (left : SessionLeft .busLost none .ready now (heardBus x.voltage (beforeBus x s)) q) :
    q.stc.contactor = false ∧ q.ses.openRecord = none ∧ q.ses.snapshot = none ∧ ∃ k, q.ses.log = s.ses.log ++ [k] ∧
      k.reason = .busLost ∧ k.faultCode = none ∧ k.record.number = o.number := by
  obtain ⟨contactor, record, snapshot, k, log, reason, code, number⟩ := lost_closed left
  have same : (heardBus x.voltage (beforeBus x s)).ses.log = s.ses.log := (beforeBus_kept op policy).log
  exact ⟨contactor, record, snapshot, k, by rw [log, same], reason, code, number.trans due.number⟩

/-! ## The bus present (R159) -/

/-- LISTENING entered, before the grant it brings (R159). -/
def listening (s : State) : State :=
  { setOp .listening s with
    stc := { (setOp .listening s).stc with listenWindow := some (s.now + 2 * s.cfg.ta * 1000) }
    dli := s.dli.enterListening s.now
    htr := s.htr.startCycle s.now }

/-- LISTENING entered, with its grant and its split. -/
def arrived (s : State) : State := resplit (regrant (listening s))

theorem arrived_faultInput (s : State) : (arrived s).shu.faultInput = s.shu.faultInput := by
  show (regrant (listening s)).shu.faultInput = _
  rw [regrant_shu, applyGrant_eq, grantTaken_faultInput]
  rfl

theorem busPresent_ready {s : State} (op : s.stc.op = .ready) :
    busPresent s = if s.shu.faultInput then raiseConverter (arrived s) else arrived s := by
  rw [← arrived_faultInput s]
  simp only [busPresent, op]
  rfl

/-- LISTENING with nothing drawn, an empty queue and its window (R159); the rest of the state as it was. -/
structure Arrived (s q : State) : Prop where
  cycle : q.htr.cycleStart = some s.now
  converted : q.htr.converted = ⟨0, 0, 0, 0⟩
  dli : q.dli = s.dli.enterListening s.now
  stc : q.stc = { s.stc with op := .listening, listenWindow := some (s.now + 2 * s.cfg.ta * 1000) }
  limit : q.shu.limit = 0
  intent : q.shu.intent = 0
  setpoint : q.shu.setpoint = 0
  grant : q.shu.record.grant = 0
  zeroCause : q.shu.record.zeroCause = .noSession
  stateChanged : q.vlk.marks.stateChanged = true
  mtr : q.mtr = s.mtr
  ins : q.ins = s.ins
  ses : q.ses = s.ses
  trc : q.trc = s.trc
  cfg : q.cfg = s.cfg
  now : q.now = s.now
  pending : q.pending = s.pending
  ptb : q.ptb = s.ptb
  epi : q.epi = s.epi
  flt : q.flt = s.flt

theorem arrived_spec {s : State} (limit : s.shu.limit = 0) (intent : s.shu.intent = 0) : Arrived s (arrived s) := by
  have out : (listening s).stc.op ≠ .session := nofun
  obtain ⟨limitNow, intentNow, grant, zeroCause⟩ := regrant_quiet out
  obtain ⟨limitThen, intentThen, setpoint, -, -⟩ := resplit_quiet limitNow
  obtain ⟨-, -, -, -, cycle, converted⟩ := resplit_spec (regrant (listening s))
  have htr := regrant_htr (listening s)
  exact {
    cycle := cycle.trans (congrArg Htr.cycleStart htr)
    converted := converted.trans (congrArg Htr.converted htr)
    dli := by rw [arrived, resplit_dli, regrant_still out limit intent]; rfl
    stc := by rw [arrived, resplit_stc, regrant_stc]; rfl
    limit := limitThen
    intent := intentThen.trans intentNow
    setpoint := setpoint
    grant := grant
    zeroCause := zeroCause
    stateChanged := by rw [arrived, resplit_vlk, regrant_vlk]; rfl
    mtr := by rw [arrived, resplit_mtr, regrant_mtr]; rfl
    ins := by rw [arrived, resplit_ins, regrant_ins]; rfl
    ses := by rw [arrived, resplit_ses, regrant_ses]; rfl
    trc := by rw [arrived, resplit_trc, regrant_trc]; rfl
    cfg := by rw [arrived, resplit_cfg, regrant_cfg]; rfl
    now := by rw [arrived, resplit_now, regrant_now]; rfl
    pending := by rw [arrived, resplit_pending, regrant_pending]; rfl
    ptb := by rw [arrived, resplit_ptb, regrant_ptb]; rfl
    epi := by rw [arrived, resplit_epi, regrant_epi]; rfl
    flt := by rw [arrived, resplit_flt, regrant_flt]; rfl }

theorem enterListening_line (now : Nat) (d : Dli) : let q := d.enterListening now
    q.queue = TxQueue.empty ∧ q.backoff = none ∧ q.framerUntil = none ∧ q.attempt = none ∧ now ≤ q.framerFrom := by
  refine ⟨rfl, rfl, rfl, ?_, le_max_right _ _⟩
  show (d.cutOffAny now).attempt = none
  unfold Dli.cutOffAny
  split
  · rfl
  · next none => exact none

/-- The queue with a LEAVE newly asked for (R147). -/
abbrev withLeave (q : TxQueue) : TxQueue := q.set .leave (some { content := .none, failed := 0 })

/-- HALTED entered from LISTENING, where no attempt is in progress and nothing is drawn: the queue gains LEAVE (R163). -/
theorem halt_listening_dli {c : FaultCode} {s : State} (op : s.stc.op = .listening) (limit : s.shu.limit = 0)
    (intent : s.shu.intent = 0) (free : s.dli.attempt = none) :
    (halt c s).dli.queue = withLeave s.dli.queue ∧
      (halt c s).dli.backoff = s.dli.backoff := by
  have still : (moveTo .halted s).dli = s.dli := by
    rw [moveTo, resplit_dli, regrant_still (s := setOp .halted s) nofun limit intent]
    rfl
  have halted : (moveTo .halted s).stc.op ≠ .start := by
    rw [(moveTo_spec .halted s nofun).1]
    exact nofun
  have queued := congrArg State.dli (queueFrame_free (k := .leave) (c := .none) (x := moveTo .halted s) (by rw [still]; exact free) halted
    nofun)
  have is : halt c s = enterHalted (moveTo .halted s) := by simp only [halt, op]
  have dli : (halt c s).dli = (queueFrame .leave .none (moveTo .halted s)).dli.enterHalted (moveTo .halted s).now := by
    rw [is]
    rfl
  rw [dli, queued, still]
  constructor
  · rw [Dli.enterHalted]
    show (Dli.stopFramer _ _).queue = _
    rw [stopFramer_queue, cutOffOthers_queue]
  · have calm : Dli.cutOffOthers (moveTo .halted s).now { s.dli with queue := withLeave s.dli.queue } =
        { s.dli with queue := withLeave s.dli.queue } := by
      simp only [Dli.cutOffOthers, free]
    show (Dli.stopFramer _ (Dli.cutOffOthers _ _)).backoff = _
    rw [calm, Dli.stopFramer]
    split <;> rfl

/-- What a bus reported present leaves in LISTENING and, with the fault input asserted, in HALTED alike (R47, R159). -/
structure Joined (s q : State) : Prop where
  sample : SampleKept s.mtr q.mtr
  cycle : q.htr.cycleStart = some s.now
  converted : q.htr.converted = ⟨0, 0, 0, 0⟩
  backoff : q.dli.backoff = none
  grant : q.shu.record.grant = 0
  zeroCause : q.shu.record.zeroCause = .noSession
  stateChanged : q.vlk.marks.stateChanged = true
  ins : q.ins = s.ins
  ses : q.ses = s.ses
  trc : q.trc = s.trc
  cfg : q.cfg = s.cfg
  now : q.now = s.now
  pending : q.pending = s.pending

theorem Arrived.joined {s q : State} (h : Arrived s q) : Joined s q :=
  { h with
    sample := by rw [h.mtr]; exact .refl _
    backoff := by rw [h.dli]; exact (enterListening_line s.now s.dli).2.1 }

/-- CONVERTER is a stop fault: raised in LISTENING it halts (R47, R164). -/
theorem raiseConverter_halt (s : State) :
    raiseConverter s = halt .converter (recordFault .converter (.number s.shu.setpoint) s) := raise_stop _ rfl

theorem halt_listening {c : FaultCode} {s : State} (op : s.stc.op = .listening) : halt c s = enterHalted (moveTo .halted s) := by
  simp only [halt, op]

theorem moveTo_record (op : OpState) (s : State) (h : op ≠ .session) :
    (moveTo op s).shu.record.grant = 0 ∧ (moveTo op s).shu.record.zeroCause = .noSession := by
  obtain ⟨-, -, grant, zeroCause⟩ := regrant_quiet (s := setOp op s) h
  exact ⟨grant, zeroCause⟩

theorem moveTo_cycle (op : OpState) (s : State) :
    (moveTo op s).htr.cycleStart = s.htr.cycleStart ∧ (moveTo op s).htr.converted = s.htr.converted := by
  obtain ⟨-, -, -, -, cycle, converted⟩ := resplit_spec (regrant (setOp op s))
  have htr := regrant_htr (setOp op s)
  exact ⟨cycle.trans (congrArg Htr.cycleStart htr), converted.trans (congrArg Htr.converted htr)⟩

/-- The fault input asserted at the arrival: CONVERTER with the setpoint, which is 0, and HALTED (R47, R159). -/
theorem converter_joined {s a : State} (h : Arrived s a) : let q := raiseConverter a
    Joined s q ∧ q.dli.queue = withLeave TxQueue.empty ∧ q.stc = { s.stc with op := .halted, listenWindow := none } ∧
      LastFault .converter (.number 0) q ∧ q.vlk.marks.fault = true ∧ SameEntries q.ptb.entries s.ptb.entries := by
  intro q
  obtain ⟨empty, backoff, -, free, -⟩ := enterListening_line s.now s.dli
  have takes : a.stc.op.takesFrames = true := by rw [h.stc]; rfl
  have halted : HaltedFrom a.dli.queue.claim a q := raise_haltedFrom _ rfl takes
  have sample : SampleKept a.mtr q.mtr := raise_sample .converter _ a
  have fault : FaultRaised .converter (.number a.shu.setpoint) a q := faultRaised_raise .converter _ a
  have marks : q.vlk.marks.stateChanged = true := (raise_halts (c := .converter) (.number a.shu.setpoint) rfl takes).2.2.2.2.2.2.2.2.2.1
  obtain ⟨r, is⟩ : ∃ r, r = recordFault .converter (.number a.shu.setpoint) a := ⟨_, rfl⟩
  have op : r.stc.op = .listening := by rw [is, recordFault_stc, h.stc]
  have eq : q = halt .converter r := by rw [is]; exact raiseConverter_halt a
  have listens := halt_listening (c := .converter) op
  obtain ⟨queue, backoffNow⟩ := halt_listening_dli (c := .converter) op (by rw [is]; exact h.limit) (by rw [is]; exact h.intent)
    (by rw [is]; exact (congrArg Dli.attempt h.dli).trans free)
  obtain ⟨grant, zeroCause⟩ := moveTo_record .halted r nofun
  obtain ⟨cycle, converted⟩ := moveTo_cycle .halted r
  have stc := (moveTo_spec .halted r nofun).1
  have line : r.dli = s.dli.enterListening s.now := by rw [is]; exact h.dli
  have off : a.stc.op ≠ .session := by rw [h.stc]; exact nofun
  refine ⟨{
    sample := by rw [← h.mtr]; exact sample
    cycle := by rw [eq, listens, enterHalted_htr, cycle, is]; exact h.cycle
    converted := by rw [eq, listens, enterHalted_htr, converted, is]; exact h.converted
    backoff := by rw [eq, backoffNow, line]; exact backoff
    grant := by rw [eq, listens, enterHalted_shu]; exact grant
    zeroCause := by rw [eq, listens, enterHalted_shu]; exact zeroCause
    stateChanged := marks
    ins := by rw [halted.ins, if_neg off, h.ins]
    ses := by rw [eq, listens, enterHalted_ses, moveTo_ses, is]; exact h.ses
    trc := by rw [← h.trc]; exact raise_trc _ _ _
    cfg := halted.cfg.trans h.cfg
    now := halted.now.trans h.now
    pending := halted.pending.trans h.pending }, ?_, ?_, ?_, fault.2, ?_⟩
  · rw [eq, queue, line, empty]
  · rw [eq, listens, enterHalted_stc, stc, is, recordFault_stc, h.stc]
  · rw [h.setpoint] at fault
    exact lastFault_added fault.1
  · rw [← h.ptb]
    exact halted.entries

end Sys2Proof.Proofs

end

section
/-! PROOF. The samples that report the bus, and the sample a session's opening overtook (R121, R124, R134). -/

namespace Sys2Proof.Proofs

open Sys2Proof.Machine

/-- A sample that reports the bus present in READY. -/
theorem sampleWork_present {x : MeterSample} {s : State} (op : s.stc.op = .ready) (other : s.mtr.cal ≠ .shorted)
    (absent : s.mtr.presence = .absent) (high : s.cfg.busThreshold ≤ x.voltage) (long : 3 ≤ s.mtr.run) :
    sampleWork x s = periodBegins (busPresent (heardBus x.voltage { s with mtr := { s.mtr with latest := some x } })) := by
  have out : s.stc.op ≠ .session := by rw [op]; exact nofun
  have judged := judgeBus_present (v := x.voltage) (s := { s with mtr := { s.mtr with latest := some x } }) absent high long
  rw [sampleWork, before_outside out, judged, slotTest_other other]
  rfl

/-- The presence four samples in a row have brought (R124). -/
theorem presenceTold_present {threshold v : Nat} {r : Mtr} (absent : r.presence = .absent) (high : threshold ≤ v) (long : 3 ≤ r.run) :
    (presenceTold threshold v r).presence = .present ∧ (presenceTold threshold v r).run = 0 := by
  have told : Rises threshold v r ∧ 3 ≤ r.run := ⟨.inl ⟨absent, high⟩, long⟩
  exact ⟨(if_pos told).trans (if_pos absent), if_pos told⟩

theorem Joined.periodBegins {s q : State} (h : Joined s q) : Joined s (periodBegins q) :=
  { h with sample := ⟨h.sample.latest, h.sample.offset, h.sample.heldHeat, h.sample.heldCharge, h.sample.presence, h.sample.run⟩ }

/-- The sample that a session's opening overtook reports a loss, or is discarded (R121, R134). -/
theorem exec_sample_overtaken {c : Nat → MeterInputs → Instr} (mem : c ∈ sampleCommands) (t : Nat) {p : Nat} (m : MeterInputs)
    {s : State} (op : (elapse t s).stc.op = .session) (runs : (elapse t s).mtr.periodEnd = some p) (ahead : (elapse t s).now < p)
    (overtaken : (elapse t s).mtr.overtaken = some (elapse t s).now) : exec (c t m) s = .next (finish false (elapse t s)
      (overtakenSample (sampleOf (elapse t s).trm.inUse (elapse t s).mtr.offset m).voltage (elapse t s))) := by
  have early : ¬ ((elapse t s).stc.op ≠ .start ∧ due (elapse t s).now (elapse t s).mtr.periodEnd = true) := by
    rintro ⟨-, passed⟩
    rw [runs] at passed
    exact absurd (of_decide_eq_true passed) (Nat.not_le.mpr ahead)
  rw [exec_sample mem, sampleCompletes, if_neg early, if_pos ⟨op, overtaken⟩]

/-- The period that was overtaken is over. -/
abbrev forgotten (s : State) : State := { s with mtr := { s.mtr with overtaken := none } }

theorem overtakenSample_lost {v : Nat} {s : State} (lost : Lost v s) : overtakenSample v s = busLost (heardBus v (forgotten s)) := by
  refine (if_pos (reportsLost_iff.mpr lost)).trans ?_
  rw [judgePresence_eq]
  rfl

theorem overtakenSample_other {v : Nat} {s : State} (other : ¬ Lost v s) : overtakenSample v s = forgotten s :=
  if_neg fun reports => other (reportsLost_iff.mp reports)

theorem Departed.periodBegins {dest : OpState} {q : State} (h : Departed dest q) : Departed dest (periodBegins q) :=
  ⟨h.op, h.contactor, h.limit, h.intent, h.enable, h.interval, h.record⟩

theorem SessionLeft.periodBegins {reason : CloseReason} {code : Option FaultCode} {dest : OpState} {o : OpenRecord} {s q : State}
    (h : SessionLeft reason code dest o s q) : SessionLeft reason code dest o s (periodBegins q) :=
  ⟨h.toDeparted.periodBegins, h.lifetime, h.ses⟩

theorem Readied.finish {s b : State} (h : Readied s b) (before : State) : finish false before b = b :=
  finish_outside (by rw [h.op]; exact nofun)

/-- A loss reported from LISTENING or LINKED. -/
theorem lost_line {x : MeterSample} {s : State} (op : s.stc.op = .listening ∨ s.stc.op = .linked) :
    let q := busLost (heardBus x.voltage { s with mtr := { s.mtr with latest := some x } })
    Readied s q ∧ q.mtr.latest = some x ∧ q.mtr.offset = s.mtr.offset ∧ q.mtr.cal = s.mtr.cal ∧ q.flt = s.flt ∧
      q.vlk.inProgress = s.vlk.inProgress := by
  intro q
  have takes : s.stc.op.takesFrames = true := by
    rcases op with op | op <;> rw [op] <;> rfl
  have readied := busLost_readied (s := heardBus x.voltage { s with mtr := { s.mtr with latest := some x } }) takes
  obtain ⟨mtr, flt, inProgress, -⟩ := busLost_line (s := heardBus x.voltage { s with mtr := { s.mtr with latest := some x } }) op
  exact ⟨readied.of_kept rfl rfl rfl rfl rfl, (congrArg Mtr.latest mtr :), (congrArg Mtr.offset mtr :), (congrArg Mtr.cal mtr :), flt,
    inProgress⟩

theorem takesFrames_cases {op : OpState} (h : op.takesFrames = true) : op = .session ∨ op = .listening ∨ op = .linked := by
  cases op <;> simp_all [OpState.takesFrames]

/-- Settles O59: the bus present by `Joined`, the bus lost by `Readied` and the session's close, and the overtaken sample. -/
theorem busReportsTaken : Obligations.BusReportsTaken := by
  intro c mem t p m s s0 x bound exceeds lost leave readied closed
  have exec_due := exec_sample_due mem t (p := p) m (s := s)
  have exec_late := exec_sample_overtaken mem t (p := p) m (s := s)
  rw [show elapse t s = s0 from rfl, show sampleOf s0.trm.inUse s0.mtr.offset m = x from rfl] at exec_due exec_late
  clear_value s0 x
  have ready : ∀ {q}, Readied s0 q → readied q := fun h => ⟨h.op, h.window, h.presence, h.run, h.cycle, h.entries, h.unlisted,
    h.feeder, h.leave, h.finding, h.epoch, h.announce, h.timer, h.limit, h.intent, h.trc, h.cfg, h.trm, h.now, h.pending⟩
  refine ⟨fun runs passed => ⟨fun op quiet other absent high long => ?_, fun takes calm other lose => ?_, fun op slot lose => ?_,
    fun o op slot lose record => ?_⟩, fun op runs ahead overtaken => ⟨fun o lose record => ?_, fun kept => ?_⟩⟩
  · obtain ⟨limit, intent, setpoint, -⟩ := quiet (by rw [op]; exact nofun)
    have run := exec_due (by rw [op]; exact nofun) runs passed
    rw [sampleWork_present op other absent high long] at run
    obtain ⟨present, zero⟩ := presenceTold_present (r := { s0.mtr with latest := some x }) absent high long
    obtain ⟨y, is⟩ : ∃ y, y = heardBus x.voltage { s0 with mtr := { s0.mtr with latest := some x } } := ⟨_, rfl⟩
    have opNow : y.stc.op = .ready := by rw [is]; exact op
    have arrives : Arrived y (arrived y) := arrived_spec (by rw [is]; exact limit) (by rw [is]; exact intent)
    rw [← is, busPresent_ready opNow] at run
    by_cases input : s0.shu.faultInput = true
    · obtain ⟨joined, queue, stc, fault, mark, entries⟩ := converter_joined arrives
      have inputNow : y.shu.faultInput = true := by rw [is]; exact input
      have off : (raiseConverter (arrived y)).stc.op ≠ .session := by rw [stc]; exact nofun
      rw [if_pos inputNow, finish_outside (after := periodBegins (raiseConverter (arrived y))) off] at run
      subst is
      refine ⟨_, run, joined.sample.presence.trans present, joined.sample.run.trans zero, joined.sample.latest, joined.cycle,
        joined.converted, joined.backoff, joined.grant, joined.zeroCause, joined.stateChanged, joined.ins, joined.ses, joined.trc,
        joined.cfg, joined.now, joined.pending, fun calm => absurd (input.symm.trans calm) nofun, fun _ => ⟨queue, stc, ?_, mark,
        entries⟩⟩
      rw [setpoint]
      exact fault
    · have calm : s0.shu.faultInput = false := Bool.eq_false_iff.mpr input
      have inputNow : y.shu.faultInput ≠ true := by rw [is]; exact input
      have joined := arrives.joined
      obtain ⟨empty, -, framer, -, from_⟩ := enterListening_line y.now y.dli
      have line : (arrived y).stc.op ≠ .session := by rw [arrives.stc]; exact nofun
      rw [if_neg inputNow, finish_outside (after := periodBegins (arrived y)) line] at run
      subst is
      exact ⟨_, run, joined.sample.presence.trans present, joined.sample.run.trans zero, joined.sample.latest, joined.cycle,
        joined.converted, joined.backoff, joined.grant, joined.zeroCause, joined.stateChanged, joined.ins, joined.ses, joined.trc,
        joined.cfg, joined.now, joined.pending, fun _ => ⟨(congrArg Dli.queue arrives.dli).trans empty,
        (congrArg Dli.framerUntil arrives.dli).trans framer, le_of_le_of_eq from_ (congrArg Dli.framerFrom arrives.dli).symm,
        arrives.stc, arrives.ptb, arrives.epi, arrives.flt⟩, fun asserted => absurd (calm.symm.trans asserted) nofun⟩
  · have run := exec_due (fun h => by rw [h] at takes; exact nomatch takes) runs passed
    rcases takesFrames_cases takes with op | op
    · have policy : Exceeds x s0 → s0.cfg.policies.overdraw = false := fun e => absurd e (calm op)
      obtain ⟨left, latest, -, -, flt, closes⟩ := lost_session op policy
      rw [sampleWork_lost_session op lose policy, left.periodBegins.finish] at run
      refine ⟨_, run, ready left.periodBegins, latest, flt.trans (supervised_flt.2 (calm op)), fun o _ record => ?_⟩
      obtain ⟨now, due, closing⟩ := closes o record
      exact lost_session_closed op policy due closing.periodBegins
    · obtain ⟨left, latest, -, -, flt, -⟩ := lost_line (x := x) op
      rw [sampleWork_lost_line op lose, slotTest_other other, left.periodBegins.finish] at run
      refine ⟨_, run, ready left.periodBegins, latest, flt, fun o session => ?_⟩
      rcases op with op | op <;> exact absurd (op.symm.trans session) nofun
  · have run := exec_due (by rcases op with op | op <;> rw [op] <;> exact nofun) runs passed
    obtain ⟨left, latest, offset, cal, flt, inProgress⟩ := lost_line (x := x) op
    rw [sampleWork_lost_line op lose, slotTest_slot slot (cal.trans slot)] at run
    obtain ⟨b, is⟩ : ∃ b, b = busLost (heardBus x.voltage { s0 with mtr := { s0.mtr with latest := some x } }) := ⟨_, rfl⟩
    rw [← is] at run left latest offset cal flt inProgress
    have judged := judgeSlot_judged x.total b
    obtain ⟨fits, refuses⟩ := judgeSlot_flt x.total b
    have stays := left.of_slot (judgeSlot_stays (reading := x.total) (.inr (.inr (by rw [left.op]; rfl))))
    rw [stays.periodBegins.finish] at run
    refine ⟨_, run, ready stays.periodBegins, judged.latest.trans latest, periodBegins_idle judged.cal, judged.inProgress,
      fun low high => ⟨judged.offset.trans (if_pos ⟨low, high⟩), (fits ⟨low, high⟩).trans flt⟩, fun beyond => ?_, fun tag is => ?_⟩
    · have outside : ¬ (-50 ≤ x.total ∧ x.total ≤ 50) := by omega
      exact ⟨judged.offset.trans ((if_neg outside).trans offset), lastFault_added (refuses outside).1⟩
    · exact ⟨_, judged.slot tag (inProgress.trans is), rfl, rfl⟩
  · have run := exec_due (by rw [op]; exact nofun) runs passed
    have calm : ¬ Exceeds x s0 := fun exceeding => exceeding.1 slot
    have policy : Exceeds x s0 → s0.cfg.policies.overdraw = false := fun e => absurd e calm
    obtain ⟨left, latest, offset, cal, flt, closes⟩ := lost_session op policy
    have before := beforeBus_kept op policy
    have link : (beforeBus x s0).vlk = s0.vlk := by rw [before.vlk, supervisedState, if_neg calm]; rfl
    obtain ⟨ended, answers⟩ := busLost_abandons (s := heardBus x.voltage (beforeBus x s0))
      ((congrArg Stc.op before.stc).trans op) (fun idle => absurd (slot.symm.trans (before.cal.symm.trans idle)) nofun)
    rw [sampleWork_lost_session op lose policy, left.periodBegins.finish] at run
    obtain ⟨now, due, closing⟩ := closes o record
    exact ⟨_, run, ready left.periodBegins, lost_session_closed op policy due closing.periodBegins, latest, periodBegins_idle cal, offset,
      flt.trans (supervised_flt.2 calm), ended,
      fun tag is => ⟨_, answers tag ((congrArg Vlk.inProgress link).trans is), rfl, rfl⟩⟩
  · have run := exec_late op runs ahead overtaken
    obtain ⟨y, is⟩ : ∃ y, y = heardBus x.voltage (forgotten s0) := ⟨_, rfl⟩
    have opNow : y.stc.op = .session := by rw [is]; exact op
    have recordNow : y.ses.openRecord = some o := by rw [is]; exact record
    rw [overtakenSample_lost lose, ← is] at run
    have left : Readied s0 (busLost y) := (busLost_readied (by rw [opNow]; rfl)).of_kept (by rw [is]; rfl) (by rw [is]; rfl)
      (by rw [is]; rfl) (by rw [is]; rfl) (by rw [is]; rfl)
    have closing := busLost_closes opNow recordNow
    obtain ⟨latest, offset, cal, flt⟩ := busLost_meter opNow
    rw [left.finish] at run
    obtain ⟨contactor, none, snapshot, k, log, reason, code, number⟩ := lost_closed closing
    have logged : y.ses.log = s0.ses.log := by rw [is]; rfl
    refine ⟨_, run, ready left, ⟨contactor, none, snapshot, k, by rw [log, logged], reason, code, number⟩, latest.trans (by rw [is]; rfl),
      offset.trans (by rw [is]; rfl), cal, flt.trans (by rw [is]; rfl), fun empty => ?_⟩
    have emptyNow : y.mtr.interval.count = 0 := by rw [is]; exact empty
    refine ⟨?_, _, by rw [closing.ses]; exact List.getLast?_concat, ?_⟩
    · rw [closing.lifetime, if_pos emptyNow, is]
      rfl
    · rw [closingRecord, if_pos emptyNow]
      exact ⟨rfl, rfl⟩
  · rw [exec_late op runs ahead overtaken, overtakenSample_other kept]
    exact congrArg Host.Outcome.next (finish_quiet rfl rfl)

end Sys2Proof.Proofs

end

section
/-! PROOF. A sample that ends the interval, overdraws or closes the session (R118, R126 to R129). -/

namespace Sys2Proof.Proofs

open Sys2Proof.Machine

/-! ## The close that credits once (R127, R138) -/

/-- A record closed after the steps before the bus: the sample's interval credited once, as the lifetime counter is. -/
theorem closed_of_due {reason : CloseReason} {code : Option FaultCode} {dest : OpState} {ended : Interval} {o now : OpenRecord}
    {s y r q : State} (due : CreditDue ended o s y now) (log : y.ses.log = s.ses.log) (stc : y.stc = s.stc)
    (left : SessionLeft reason code dest now y r) (lifetime : q.mtr.lifetime = r.mtr.lifetime) (ses : q.ses = r.ses) :
    q.mtr.lifetime = s.mtr.lifetime + (creditOf ended o).1 + (creditOf ended o).2 ∧
      q.ses.log = s.ses.log ++
        [closeRecord { o.credit ended with peak := s.shu.peak } (clock s) q.mtr.lifetime reason code false] ∧
      q.ses.openRecord = none ∧ q.ses.snapshot = none := by
  have clocks : clock y = clock s := by rw [clock, clock, stc]
  rw [lifetime, ses]
  refine ⟨left.lifetime.trans due.lifetime, ?_, left.record, (congrArg Ses.snapshot left.ses :)⟩
  rw [congrArg Ses.log left.ses, log, due.closing, clocks]

/-- The slot's end leaves the credit that a close after it is due. -/
theorem creditDue_slotEnded {ended : Interval} {o now : OpenRecord} {s y : State} (reading : Int) (v : Nat)
    (due : CreditDue ended o s y now) : CreditDue ended o s (slotEnded reading (heardBus v y)) now := by
  obtain ⟨record, number, closing, lifetime⟩ := due
  have mtr := slotEnded_mtr reading (heardBus v y)
  have ses : (slotEnded reading (heardBus v y)).ses = y.ses := endCalibrate_ses _ _ _
  have shu : (slotEnded reading (heardBus v y)).shu = y.shu := endCalibrate_shu _ _ _
  exact ⟨by rw [ses, record], number, by rw [mtr, shu]; exact closing, by rw [mtr]; exact lifetime⟩

/-! ## OVERDRAW under the stop policy (R50) -/

/-- The draw exceeded under the stop policy halts before the bus is judged, and nothing after the halt closes or judges again. -/
theorem sampleWork_overdraw {x : MeterSample} {s : State} (op : s.stc.op = .session) (exceeds : Exceeds x s)
    (stop : s.cfg.policies.overdraw = true) : sampleWork x s =
      periodBegins (heardBus x.voltage (raise .overdraw (.number x.corrected) (sampled false x s))) := by
  have stops : isStop (sampled false x s).cfg.policies .overdraw = true := stop
  have halted : (raise .overdraw (.number x.corrected) (sampled false x s)).stc.op = .halted := (raise_departed _ stops op).op
  have before : intervalTest (creditSample (decide (s.mtr.cal = .shorted)) x { s with mtr := { s.mtr with latest := some x } }) =
      raise .overdraw (.number x.corrected) (sampled false x s) := by
    rw [creditSample_overdraws op (exceeds_iff.mp exceeds), decide_eq_false exceeds.1, overdrawRaised_stop stop]
    exact intervalTest_outside (by rw [halted]; exact nofun)
  refine (sampleWork_unacted before ?_).trans (by rw [slotTest_other exceeds.1])
  rintro ⟨-, ⟨-, acts⟩ | ⟨-, acts⟩⟩
  · exact nomatch halted.symm.trans acts
  · rw [halted] at acts
    exact nomatch acts

/-! ## Nothing acted on in SESSION -/

theorem unacted_session {v : Nat} {s : State} (op : s.stc.op = .session) (kept : ¬ Lost v s) : ¬ Acted v s := by
  rintro ⟨⟨tells, long⟩, ⟨-, ready⟩ | ⟨present, -⟩⟩
  · exact nomatch op.symm.trans ready
  · rcases tells with ⟨absent, -⟩ | ⟨-, low⟩
    · exact nomatch absent.symm.trans present
    · exact kept ⟨present, low, long⟩

/-- In SESSION, with no loss reported, the slot and the next period are left after the steps before the bus. -/
theorem sampleWork_kept {x : MeterSample} {s : State} (op : s.stc.op = .session)
    (policy : Exceeds x s → s.cfg.policies.overdraw = false) (kept : ¬ Lost x.voltage s) :
    sampleWork x s = periodBegins (slotTest (decide (s.mtr.cal = .shorted)) x.total (heardBus x.voltage (beforeBus x s))) := by
  have before := beforeBus_kept op policy
  refine sampleWork_unacted rfl (unacted_session (by rw [before.stc, op]) ?_)
  rw [Lost, before.presence, before.cfg, before.run]
  exact kept

/-- The link stands through the steps before the bus but for the mark of an OVERDRAW recorded. -/
theorem supervised_link (x : MeterSample) (s : State) : (supervisedState x s).vlk.inProgress = s.vlk.inProgress ∧
    (supervisedState x s).vlk.slot = s.vlk.slot :=
  ⟨counted_supervised.inProgress, counted_supervised.slot⟩

/-- CALIBRATE METER ended by a slot sample in SESSION, as the sample found it (R123). -/
theorem slotJudged_before {x : MeterSample} {s q : State} (op : s.stc.op = .session)
    (policy : Exceeds x s → s.cfg.policies.overdraw = false)
    (judged : SlotJudged x.total (heardBus x.voltage (beforeBus x s)) q) :
    q.mtr.cal = .idle ∧ q.vlk.inProgress = none ∧
      q.mtr.offset = (if -50 ≤ x.total ∧ x.total ≤ 50 then x.total else s.mtr.offset) ∧
      ∀ tag, s.vlk.inProgress = some tag → q.vlk.slot = some (calibrated tag x.total q.mtr.offset) := by
  have before := beforeBus_kept op policy
  have offset : (heardBus x.voltage (beforeBus x s)).mtr.offset = s.mtr.offset := before.offset
  have link : (heardBus x.voltage (beforeBus x s)).vlk.inProgress = s.vlk.inProgress := by
    show (beforeBus x s).vlk.inProgress = _
    rw [before.vlk, (supervised_link x s).1]
  refine ⟨judged.cal, judged.inProgress, ?_, fun tag is => judged.slot tag (link.trans is)⟩
  rw [judged.offset, offset]

/-! ## The loss's FAULT mark -/

theorem busLost_fault {s : State} (op : s.stc.op = .session) : (busLost s).vlk.marks.fault = s.vlk.marks.fault := by
  obtain ⟨-, -, -, -, -, -, -, -, -, -, vlk, -⟩ := depart_spec .busLost none .ready s nofun
  rw [busLost_session op, leftForReady_vlk, vlk]
  show ((closeSession .busLost none s).vlk.marks.post .stateChanged).fault = _
  rw [closeSession_fault]
  rfl

end Sys2Proof.Proofs

end

section
/-! PROOF. The end of an interval: credit, snapshot, demand and the next interval's band (R55, R126, R128, R129). -/

namespace Sys2Proof.Proofs

open Sys2Proof.Machine

/-! ## The slot's end after the bus, where nothing halts -/

/-- The end of the sample's work moves the meter's slot, the link and the faults alone. -/
structure SlotPassed (y q : State) : Prop where
  rest : RestKept { y with mtr := q.mtr } q
  interval : q.mtr.interval = y.mtr.interval
  lifetime : q.mtr.lifetime = y.mtr.lifetime
  shu : q.shu = y.shu
  dmu : q.dmu = y.dmu
  dli : q.dli = y.dli
  ptb : q.ptb = y.ptb

theorem SlotStays.passed {reading : Int} {y q : State} (h : SlotStays reading y q) : SlotPassed y q :=
  ⟨h.rest, by rw [h.mtr], by rw [h.mtr], h.shu, h.dmu, h.dli, h.ptb⟩

theorem slotPassed_refl (y : State) : SlotPassed y y := ⟨⟨rfl, rfl, rfl, rfl, rfl, rfl, rfl, rfl⟩, rfl, rfl, rfl, rfl, rfl, rfl⟩

theorem SlotPassed.periodBegins {y q : State} (h : SlotPassed y q) : SlotPassed y (periodBegins q) := by
  obtain ⟨⟨now, pending, cfg, -, ses, stc, trc, trm⟩, interval, lifetime, shu, dmu, dli, ptb⟩ := h
  exact ⟨⟨now, pending, cfg, rfl, ses, stc, trc, trm⟩, interval, lifetime, shu, dmu, dli, ptb⟩

theorem SlotPassed.finish {y q : State} (h : SlotPassed y q) (before : State) : SlotPassed y (finish false before q) := by
  obtain ⟨⟨now, pending, cfg, -, ses, stc, trc, trm⟩, interval, lifetime, shu, dmu, dli, ptb⟩ := h
  exact ⟨⟨now, pending, cfg, rfl, ses, stc, trc, trm⟩, interval, lifetime, shu, dmu, dli, ptb⟩

theorem SlotPassed.grantInputs {y q : State} (h : SlotPassed y q) : q.grantInputs = y.grantInputs := by
  obtain ⟨now, pending, cfg, -, ses, stc, trc, trm⟩ := h.rest
  simp only [State.grantInputs, h.ptb, cfg, h.dmu, ses, stc]

theorem SlotPassed.currentBand {y q : State} (h : SlotPassed y q) : currentBand q = currentBand y := by
  obtain ⟨-, -, cfg, -⟩ := h.rest
  simp only [Machine.currentBand, h.ptb, h.shu, cfg]

theorem SlotPassed.heardBus {v : Nat} {y q : State} (h : SlotPassed (heardBus v y) q) : SlotPassed y q :=
  ⟨h.rest, h.interval, h.lifetime, h.shu, h.dmu, h.dli, h.ptb⟩

/-! ## The record and the interval -/

variable {slot : Bool} {x : MeterSample} {o : OpenRecord} {s z : State}

theorem counted_record (h : Counted slot x s z) (record : s.ses.openRecord = some o) : z.ses.openRecord = some o := by
  obtain ⟨-, -, -, -, ses, -⟩ := h.rest
  rw [ses]
  exact record

theorem counted_interval (h : Counted slot x s z) : z.mtr.interval = (s.mtr.accumulate slot x).interval := by rw [h.mtr]

theorem counted_clock (h : Counted slot x s z) : clock z = clock s := by
  obtain ⟨-, -, -, -, -, stc, -⟩ := h.rest
  rw [clock, clock, stc]

theorem accumulate_number (slot : Bool) (x : MeterSample) (r : Mtr) :
    (r.accumulate slot x).interval.number = r.interval.number := by
  cases slot <;> rfl

/-- The interval's whole milliwatt-hours credited, with the snapshot (R126 steps 1 to 3, R128, R136). -/
theorem intervalEnds_credits (h : Counted slot x s z) (record : s.ses.openRecord = some o) :
    let ended := (s.mtr.accumulate slot x).interval
    let q := intervalEnds z
    q.mtr.lifetime = s.mtr.lifetime + (creditOf ended o).1 + (creditOf ended o).2 ∧
      q.ses = { s.ses with
        openRecord := some { o.credit ended with peak := s.shu.peak }
        snapshot := some { record := { o.credit ended with peak := s.shu.peak }, time := clock s, lifetime := q.mtr.lifetime } } := by
  intro ended q
  obtain ⟨-, -, -, -, sesKept, -⟩ := h.rest
  have recordNow := counted_record h record
  have lifetime : q.mtr.lifetime = z.mtr.lifetime + creditTotal z.mtr.interval (some o) := by
    simp only [q]
    rw [intervalEnds_eq, settleDemand_mtr, intervalRead_mtr recordNow]
  have ses : q.ses = _ := (settleDemand_ses _ z.dmu).trans (intervalRead_ses recordNow)
  constructor
  · rw [lifetime, counted_interval h, h.mtr, ← accumulate_lifetime slot x s.mtr]
    exact (Nat.add_assoc _ _ _).symm
  · rw [ses, ← lifetime, creditedRecord, counted_interval h, counted_clock h, h.peak, sesKept]

/-- The interval that follows: what is left below a milliwatt-hour, and its count, number and marks (R126 steps 1 and 5). -/
theorem intervalEnds_interval (h : Counted slot x s z) : let ended := (s.mtr.accumulate slot x).interval
    let i := (intervalEnds z).mtr.interval
    i.heatAcc = ended.heatAcc % 14400 ∧ i.chargeAcc = ended.chargeAcc % 14400 ∧ i.count = 0 ∧
      i.number = min (s.mtr.interval.number + 1) 65535 ∧ i.estimated = false ∧ i.reverse = false ∧
      i.band = currentBand (intervalEnds z) := by
  intro ended i
  have next : i = (z.mtr.interval.remainders).next (currentBand (settleDemand z.dmu (intervalRead z))) := by
    simp only [i]
    rw [intervalEnds_eq, settleDemand_mtr]
    rfl
  rw [next, counted_interval h, ← accumulate_number slot x s.mtr]
  exact ⟨rfl, rfl, rfl, rfl, rfl, rfl, rfl⟩

/-- The band by the depot load (R129). -/
theorem currentBand_eq (t : State) : currentBand t =
    if t.shu.record.available = 0 then .peak
    else if ((t.ptb.entries.map (fun e => max e.share.limit e.share.intent)).sum + t.shu.limit) * 1000 / t.shu.record.available <
      t.cfg.lowBand then .low
    else if t.cfg.peakBand ≤ ((t.ptb.entries.map (fun e => max e.share.limit e.share.intent)).sum + t.shu.limit) * 1000 /
      t.shu.record.available then .peak else .normal := rfl

/-! ## The demand figures (R55 to R62) -/

/-- The demand figures read again from the record, the zones and the sample (R55, R56, R58 to R62). -/
theorem intervalRead_dmu (h : Counted slot x s z) : let d := (intervalRead z).dmu
    d.delivered = deliveredOf (intervalRead z).ses.openRecord ∧ d.targetMet = targetMetOf s.dmu.target d.delivered ∧
      d.chargerDemand = chargerDemandOf s.cfg s.dmu.target d.targetMet (bandOf (tMinOf s.htr.zones)) ∧
      d.heaterDemand = ratedSum Zone.asks s.htr.zones s.cfg.ratings ∧
      d.ownDemand = min s.cfg.ist (d.chargerDemand + d.heaterDemand) ∧
      d.weight = weightOf s.cfg.irating s.dmu.target d.delivered d.targetMet s.dmu.departure (clock s)
        (weightVoltage s.cfg (some x)) := by
  obtain ⟨-, -, cfg, -, -, -, -, -⟩ := h.rest
  have latest : z.mtr.latest = some x := by rw [h.mtr]
  have clocks := counted_clock h
  intro d
  have is : d = ((s.dmu.reread (intervalRead z).ses.openRecord).refresh s.cfg s.htr.zones).reweigh s.cfg (some x) (clock s) := by
    rw [← h.dmu, ← h.htr, ← latest, ← clocks, ← (cfg : z.cfg = s.cfg)]
    rfl
  rw [is]
  exact ⟨rfl, rfl, rfl, rfl, rfl, rfl⟩

/-- The split leaves those figures as they were read. -/
theorem intervalEnds_dmu (h : Counted slot x s z) : let q := intervalEnds z
    q.dmu.delivered = deliveredOf q.ses.openRecord ∧ q.dmu.targetMet = targetMetOf s.dmu.target q.dmu.delivered ∧
      q.dmu.chargerDemand = chargerDemandOf s.cfg s.dmu.target q.dmu.targetMet (bandOf (tMinOf s.htr.zones)) ∧
      q.dmu.heaterDemand = ratedSum Zone.asks s.htr.zones s.cfg.ratings ∧
      q.dmu.ownDemand = min s.cfg.ist (q.dmu.chargerDemand + q.dmu.heaterDemand) ∧
      q.dmu.weight = weightOf s.cfg.irating s.dmu.target q.dmu.delivered q.dmu.targetMet s.dmu.departure (clock s)
        (weightVoltage s.cfg (some x)) := by
  intro q
  obtain ⟨limit, split⟩ := settleDemand_figures z.dmu (intervalRead z)
  obtain ⟨own, weight, -, -, -, delivered, targetMet, -, charger, heater⟩ :=
    split_kept (intervalRead z).cfg.tPermit limit (intervalRead z).dmu
  have dmu : q.dmu = (intervalRead z).dmu.split (intervalRead z).cfg.tPermit limit := split
  have ses : q.ses = (intervalRead z).ses := settleDemand_ses _ z.dmu
  rw [dmu, ses, own, weight, delivered, targetMet, charger, heater]
  exact intervalRead_dmu h

/-- The interval's end hands a change of own demand or weight to the grant, and makes one split (R30, R31, R65). -/
theorem intervalEnds_settled (h : Counted slot x s z) :
    DemandSettled (FiguresMoved s (intervalEnds z)) { s with shu := z.shu } (intervalEnds z) := by
  obtain ⟨-, -, cfg, -, -, -, -, -⟩ := h.rest
  have settled := settleDemand_settled (b := { s with shu := z.shu }) (s := intervalRead z) rfl cfg h.dli
  obtain ⟨limit, split⟩ := settleDemand_figures s.dmu (intervalRead z)
  obtain ⟨own, weight, -⟩ := split_kept (intervalRead z).cfg.tPermit limit (intervalRead z).dmu
  rw [← split] at own weight
  rw [intervalEnds_eq, h.dmu]
  refine demandSettled_congr settled ?_ rfl rfl rfl rfl rfl rfl rfl rfl
  show _ ∨ _ ↔ _ ∨ _
  rw [own, weight]

end Sys2Proof.Proofs

end

section
/-! PROOF. The interval's end, the overdraw, and the closes a sample brings (R48, R50, R118, R126 to R129). -/

namespace Sys2Proof.Proofs

open Sys2Proof.Machine

/-- A fault told of the state after the steps before the bus is told of the state the sample met. -/
theorem faultRaised_before {c : FaultCode} {d : FaultDetail} {x : MeterSample} {s q : State} (op : s.stc.op = .session)
    (calm : ¬ Exceeds x s) (raised : FaultRaised c d (heardBus x.voltage (beforeBus x s)) q) : FaultRaised c d s q := by
  have before := beforeBus_kept (x := x) op fun exceeds => absurd exceeds calm
  have flt : (heardBus x.voltage (beforeBus x s)).flt = s.flt := before.flt.trans (supervised_flt.2 calm)
  have stc : (heardBus x.voltage (beforeBus x s)).stc = s.stc := before.stc
  exact faultRaised_congr (by rw [clock, clock, stc]) (by rw [stc]) flt.symm raised

/-- The supervision of R48 to R50: counted, or cleared with the wait set where the overdraw is recorded. -/
theorem supervisedState_shu (x : MeterSample) (s : State) : (supervisedState x s).shu =
    if Exceeds x s then
      { (s.shu.ramp s.dmu.chargerAllow).supervise (decide (s.mtr.cal = .shorted)) x.corrected
          (overdrawBound s.shu.limit s.cfg.tolerance) with overCount := 0, overWait := true }
    else (s.shu.ramp s.dmu.chargerAllow).supervise (decide (s.mtr.cal = .shorted)) x.corrected
      (overdrawBound s.shu.limit s.cfg.tolerance) := by
  unfold supervisedState
  split
  · next exceeds =>
    rw [decide_eq_false exceeds.1]
    rfl
  · rfl

/-- The end of the sample's work where nothing halts: the slot, where one runs, judged without a halt. -/
theorem slotPassed_kept {x : MeterSample} {s : State} (op : s.stc.op = .session)
    (policy : Exceeds x s → s.cfg.policies.overdraw = false)
    (calm : s.mtr.cal = .shorted → (-50 ≤ x.total ∧ x.total ≤ 50) ∨ s.cfg.policies.meterCal = false) :
    SlotPassed (beforeBus x s)
      (slotTest (decide (s.mtr.cal = .shorted)) x.total (heardBus x.voltage (beforeBus x s))) := by
  have before := beforeBus_kept op policy
  by_cases slot : s.mtr.cal = .shorted
  · rw [slotTest_slot slot (by exact before.cal.trans slot)]
    have policies : (heardBus x.voltage (beforeBus x s)).cfg = s.cfg := before.cfg
    refine (judgeSlot_stays ?_).passed.heardBus
    rw [policies]
    exact (calm slot).imp_right .inl
  · rw [slotTest_other slot]
    exact (slotPassed_refl _).heardBus

/-- The faults and the slot's end of a sample that halts nothing: OVERDRAW, METER_CAL, or neither, and CALIBRATE METER's record. -/
theorem slotTest_faults {x : MeterSample} {s : State} (op : s.stc.op = .session)
    (policy : Exceeds x s → s.cfg.policies.overdraw = false) :
    let q := slotTest (decide (s.mtr.cal = .shorted)) x.total (heardBus x.voltage (beforeBus x s))
    let refused := s.mtr.cal = .shorted ∧ ¬ (-50 ≤ x.total ∧ x.total ≤ 50)
    (Exceeds x s → FaultRaised .overdraw (.number x.corrected) s q) ∧
      (refused → FaultRaised .meterCal (.number x.total) s q) ∧ (¬ Exceeds x s → ¬ refused → q.flt = s.flt) ∧
      (s.mtr.cal = .shorted → SlotJudged x.total (heardBus x.voltage (beforeBus x s)) q) := by
  have before := beforeBus_kept op policy
  intro q refused
  by_cases slot : s.mtr.cal = .shorted
  · have calm : ¬ Exceeds x s := fun exceeding => exceeding.1 slot
    have is : q = judgeSlot x.total (heardBus x.voltage (beforeBus x s)) := slotTest_slot slot (before.cal.trans slot)
    obtain ⟨fits, refuses⟩ := judgeSlot_flt x.total (heardBus x.voltage (beforeBus x s))
    rw [is]
    refine ⟨fun exceeding => absurd exceeding calm, fun bad => faultRaised_before op calm (refuses bad.2), fun _ good => ?_,
      fun _ => judgeSlot_judged _ _⟩
    have fit : -50 ≤ x.total ∧ x.total ≤ 50 := Classical.not_not.mp fun bad => good ⟨slot, bad⟩
    exact (fits fit).trans (before.flt.trans (supervised_flt.2 calm))
  · have is : q = heardBus x.voltage (beforeBus x s) := slotTest_other slot
    rw [is]
    refine ⟨fun exceeding => ?_, fun bad => absurd bad.1 slot, fun calm _ => before.flt.trans (supervised_flt.2 calm),
      fun shorted => absurd shorted slot⟩
    obtain ⟨added, mark⟩ := supervised_flt.1 exceeding
    exact ⟨before.flt.trans added, (congrArg (fun v : Vlk => v.marks.fault) before.vlk).trans mark⟩

/-- What OVERDRAW under the continue policy leaves (R50). -/
theorem overdrawn_spec (x : MeterSample) (s : State) : let q := overdrawn x s
    q.stc = s.stc ∧ FaultRaised .overdraw (.number x.corrected) s q ∧ q.shu.overCount = 0 ∧ q.shu.overWait = true ∧
      q.shu.limit = s.shu.limit ∧ q.ses = s.ses :=
  ⟨rfl, ⟨recordFault_flt _ _ (sampled false x s), rfl⟩, rfl, rfl, (counted_overdrawn x s).limit, rfl⟩

/-- A loss after an OVERDRAW under the continue policy leaves it told. -/
theorem lost_overdraw {x : MeterSample} {s : State} (op : s.stc.op = .session) (exceeds : Exceeds x s)
    (policy : s.cfg.policies.overdraw = false) :
    FaultRaised .overdraw (.number x.corrected) s (busLost (heardBus x.voltage (beforeBus x s))) := by
  have before := beforeBus_kept (x := x) op fun _ => policy
  have opNow : (heardBus x.voltage (beforeBus x s)).stc.op = .session := (congrArg Stc.op before.stc).trans op
  obtain ⟨-, -, -, -, flt, -⟩ := lost_session (x := x) op fun _ => policy
  obtain ⟨added, mark⟩ := supervised_flt.1 exceeds
  have vlk : (heardBus x.voltage (beforeBus x s)).vlk = (supervisedState x s).vlk := before.vlk
  refine ⟨flt.trans added, (busLost_fault opNow).trans ?_⟩
  rw [vlk]
  exact mark

/-- The interval ended and credited, its record and its snapshot written, and the figures and the shares that follow (R126, R129). -/
structure IntervalCredited (x : MeterSample) (o : OpenRecord) (s q : State) : Prop where
  lifetime : let ended := (s.mtr.accumulate (decide (s.mtr.cal = .shorted)) x).interval
    q.mtr.lifetime = s.mtr.lifetime + (creditOf ended o).1 + (creditOf ended o).2
  ses : let ended := (s.mtr.accumulate (decide (s.mtr.cal = .shorted)) x).interval
    q.ses = { s.ses with
      openRecord := some { o.credit ended with peak := s.shu.peak }
      snapshot := some { record := { o.credit ended with peak := s.shu.peak }, time := clock s, lifetime := q.mtr.lifetime } }
  interval : let ended := (s.mtr.accumulate (decide (s.mtr.cal = .shorted)) x).interval
    q.mtr.interval.heatAcc = ended.heatAcc % 14400 ∧ q.mtr.interval.chargeAcc = ended.chargeAcc % 14400 ∧
      q.mtr.interval.count = 0 ∧ q.mtr.interval.number = min (s.mtr.interval.number + 1) 65535 ∧
      q.mtr.interval.estimated = false ∧ q.mtr.interval.reverse = false ∧ q.mtr.interval.band = currentBand q
  figures : q.dmu.delivered = deliveredOf q.ses.openRecord ∧ q.dmu.targetMet = targetMetOf s.dmu.target q.dmu.delivered ∧
    q.dmu.chargerDemand = chargerDemandOf s.cfg s.dmu.target q.dmu.targetMet (bandOf (tMinOf s.htr.zones)) ∧
    q.dmu.heaterDemand = ratedSum Zone.asks s.htr.zones s.cfg.ratings ∧
    q.dmu.ownDemand = min s.cfg.ist (q.dmu.chargerDemand + q.dmu.heaterDemand) ∧
    q.dmu.weight = weightOf s.cfg.irating s.dmu.target q.dmu.delivered q.dmu.targetMet s.dmu.departure (clock s)
      (weightVoltage s.cfg (some x))
  settled : DemandSettled (FiguresMoved s q) { s with shu := (supervisedState x s).shu } q
  stc : q.stc = s.stc
  ptb : q.ptb = s.ptb
  cfg : q.cfg = s.cfg
  now : q.now = s.now
  pending : q.pending = s.pending

theorem intervalEnds_credited {x : MeterSample} {o : OpenRecord} {s : State} (record : s.ses.openRecord = some o) :
    IntervalCredited x o s (intervalEnds (supervisedState x s)) := by
  have counted := counted_supervised (x := x) (s := s)
  have before := beforeBus_intervalEnds counted
  obtain ⟨lifetime, ses⟩ := intervalEnds_credits counted record
  exact ⟨lifetime, ses, intervalEnds_interval counted, intervalEnds_dmu counted, intervalEnds_settled counted, before.stc, before.ptb,
    before.cfg, before.now, before.pending⟩

/-- The slot's end and the next period leave all of it. -/
theorem IntervalCredited.of_passed {x : MeterSample} {o : OpenRecord} {s y q : State} (h : IntervalCredited x o s y)
    (passing : SlotPassed y q) : IntervalCredited x o s q := by
  obtain ⟨now, pending, cfg, -, ses, stc, -, -⟩ := passing.rest
  have sesNow : q.ses = y.ses := ses
  have stcNow : q.stc = y.stc := stc
  refine ⟨?_, ?_, ?_, ?_, ?_, stcNow.trans h.stc, passing.ptb.trans h.ptb, cfg.trans h.cfg, now.trans h.now, pending.trans h.pending⟩
  · rw [passing.lifetime]; exact h.lifetime
  · rw [passing.lifetime, sesNow]; exact h.ses
  · rw [passing.interval, passing.currentBand]; exact h.interval
  · rw [passing.dmu, sesNow]; exact h.figures
  · refine demandSettled_congr h.settled ?_ rfl rfl rfl passing.shu passing.dmu passing.dli stcNow passing.grantInputs
    show _ ∨ _ ↔ _ ∨ _
    rw [passing.dmu]

/-- Settles O58: the interval's end by its lemmas (`intervalEnds_credits` to `intervalEnds_settled`), and each close by the credit
that is due once (`closed_of_due`). -/
theorem intervalAndOverdrawTaken : Obligations.IntervalAndOverdrawTaken := by
  intro c mem t p m s s0 op runs passed x bound exceeds lost supervised ended fits refused judged closed left
  have run := exec_sample_due mem t m (fun start => nomatch op.symm.trans start) runs passed
  rw [show elapse t s = s0 from rfl, show sampleOf s0.trm.inUse s0.mtr.offset m = x from rfl] at run
  clear_value s0 x
  refine ⟨fun o record slotPolicy policy kept full => ?_, fun exceeding stop => ?_, fun refusing stop kept => ?_,
    fun lose policy => ?_, fun exceeding policy kept short => ?_⟩
  · have calm : s0.mtr.cal = .shorted → (-50 ≤ x.total ∧ x.total ≤ 50) ∨ s0.cfg.policies.meterCal = false := fun slot => by
      by_cases fit : -50 ≤ x.total ∧ x.total ≤ 50
      · exact .inl fit
      · exact .inr (slotPolicy ⟨slot, fit⟩)
    have ends : beforeBus x s0 = intervalEnds (supervisedState x s0) := by rw [beforeBus_eq op policy, if_pos full]
    have passing := ((slotPassed_kept op policy calm).periodBegins).finish s0
    have credited := (ends ▸ intervalEnds_credited record : IntervalCredited x o s0 (beforeBus x s0)).of_passed passing
    obtain ⟨overdraw, meterCal, quiet, judges⟩ := slotTest_faults op policy
    rw [sampleWork_kept op policy kept] at run
    obtain ⟨y, is⟩ : ∃ y, y = slotTest (decide (s0.mtr.cal = .shorted)) x.total (heardBus x.voltage (beforeBus x s0)) := ⟨_, rfl⟩
    rw [← is] at run credited overdraw meterCal quiet judges
    obtain ⟨lifetime, ses, ⟨heat, charge, count, number, estimated, reverse, band⟩,
      ⟨delivered, targetMet, charger, heater, own, weight⟩, settled, stc, ptb, cfg, now, pending⟩ := credited
    refine ⟨_, run, (congrArg Ses.openRecord ses :), lifetime, (congrArg Ses.snapshot ses :), heat, charge, count, number, estimated,
      reverse, ?_, delivered, targetMet, charger, heater, own, weight, ?_, overdraw, meterCal, quiet, fun slot => ?_, stc,
      (congrArg Ses.log ses :), ptb, cfg, now, pending⟩
    · have form := band.trans (currentBand_eq _)
      rw [cfg, ptb] at form
      exact form
    · rw [supervisedState_shu] at settled
      exact settled
    · obtain ⟨cal, inProgress, offset, record⟩ := slotJudged_before op policy (judges slot)
      exact ⟨periodBegins_idle cal, inProgress, offset, record⟩
  · have stops : isStop (sampled false x s0).cfg.policies .overdraw = true := stop
    have departed := raise_departed (c := .overdraw) (.number x.corrected) stops op
    have fault := faultRaised_raise .overdraw (.number x.corrected) (sampled false x s0)
    have latest := (raise_sample .overdraw (.number x.corrected) (sampled false x s0)).latest
    rw [sampleWork_overdraw op exceeding stop] at run
    refine ⟨_, run, ⟨departed.op, departed.contactor, departed.limit, departed.intent, departed.enable, departed.interval, latest⟩,
      fun o record => ?_, fault, congrArg Option.isSome departed.record⟩
    have due := creditDue_counted (counted_sampled false x s0) record
    have accumulated : (s0.mtr.accumulate false x).interval = ended := by rw [← decide_eq_false exceeding.1]
    rw [accumulated] at due
    exact closed_of_due due rfl rfl (raise_closes (c := .overdraw) (.number x.corrected) stops op record) rfl rfl
  · have calm : ¬ Exceeds x s0 := fun exceeding => exceeding.1 refusing.1
    have policy : Exceeds x s0 → s0.cfg.policies.overdraw = false := fun exceeding => absurd exceeding calm
    have before := beforeBus_kept op policy
    rw [sampleWork_kept op policy kept, slotTest_slot refusing.1 (by exact before.cal.trans refusing.1)] at run
    have stopNow : (heardBus x.voltage (beforeBus x s0)).cfg.policies.meterCal = true := by
      rw [show (heardBus x.voltage (beforeBus x s0)).cfg = s0.cfg from before.cfg]
      exact stop
    have opNow : (heardBus x.voltage (beforeBus x s0)).stc.op = .session := (congrArg Stc.op before.stc).trans op
    have departed := judgeSlot_departed refusing.2 stopNow opNow
    have ends := judgeSlot_judged x.total (heardBus x.voltage (beforeBus x s0))
    obtain ⟨cal, inProgress, offset, slot⟩ := slotJudged_before op policy ends
    refine ⟨_, run, ⟨departed.op, departed.contactor, departed.limit, departed.intent, departed.enable, departed.interval,
      ends.latest.trans before.latest⟩, fun o record => ?_,
      faultRaised_before op calm ((judgeSlot_flt _ _).2 refusing.2), fun _ => ⟨periodBegins_idle cal, inProgress, offset, slot⟩⟩
    obtain ⟨now, due⟩ := beforeBus_due op record policy
    have closes := judgeSlot_closes (s := heardBus x.voltage (beforeBus x s0)) refusing.2 stopNow opNow due.record
    have stays := (slotEnded_stays x.total (heardBus x.voltage (beforeBus x s0))).rest
    obtain ⟨-, -, -, -, ses, stc, -⟩ := stays
    exact closed_of_due (creditDue_slotEnded x.total x.voltage due) ((congrArg Ses.log ses).trans before.log) (stc.trans before.stc)
      closes rfl rfl
  · obtain ⟨-, latest, offset, cal, flt, closes⟩ := lost_session op policy
    have before := beforeBus_kept op policy
    have departed := busLost_departed (s := heardBus x.voltage (beforeBus x s0)) ((congrArg Stc.op before.stc).trans op)
    have overdraw := fun exceeding => lost_overdraw op exceeding (policy exceeding)
    have due : closed (busLost (heardBus x.voltage (beforeBus x s0))) .busLost none := fun o record => by
      obtain ⟨now, due, closing⟩ := closes o record
      exact closed_of_due (y := beforeBus x s0) due before.log before.stc ⟨closing.toDeparted, closing.lifetime, closing.ses⟩ rfl rfl
    rw [sampleWork_lost_session op lose policy] at run
    obtain ⟨y, is⟩ : ∃ y, y = busLost (heardBus x.voltage (beforeBus x s0)) := ⟨_, rfl⟩
    rw [← is] at run latest offset cal flt departed overdraw due
    exact ⟨_, run, ⟨departed.op, departed.contactor, departed.limit, departed.intent, departed.enable, departed.interval, latest⟩,
      due, offset, periodBegins_idle cal, overdraw, fun calm => flt.trans (supervised_flt.2 calm)⟩
  · have calm : s0.mtr.cal ≠ .shorted := exceeding.1
    have policyNow : Exceeds x s0 → s0.cfg.policies.overdraw = false := fun _ => policy
    have before : beforeBus x s0 = overdrawn x s0 := by
      rw [beforeBus_eq op policyNow, if_neg (Nat.not_le.mpr short)]
      exact if_pos exceeding
    rw [sampleWork_kept op policyNow kept, slotTest_other calm, before] at run
    obtain ⟨stc, fault, count, wait, limit, ses⟩ := overdrawn_spec x s0
    obtain ⟨z, is⟩ : ∃ z, z = overdrawn x s0 := ⟨_, rfl⟩
    rw [← is] at run stc fault count wait limit ses
    exact ⟨_, run, stc, fault, count, wait, limit, ses⟩

end Sys2Proof.Proofs

end
